-- ==== Sys2Proof/Word.lean ====
section
/-! DEFINITION. The bit-vector types of the PMC-24's line and of its sets of rows. -/

namespace Sys2Proof

/-- One byte on the serial line (spec/09 R178). -/
abbrev Byte := BitVec 8

/-- A two-byte field on the line, little-endian (spec/09 R193). -/
abbrev Half := BitVec 16

/-- A four-byte field on the line; also the millisecond counter (spec/08 R174). -/
abbrev Word := BitVec 32

/-- A set of the 24 image rows or of the 24 driver outputs: bit n stands for row n or output n. -/
abbrev Rows := BitVec 24

end Sys2Proof
end

