-- ==== Sys2Proof/Syntax.lean ====
section
/-! DEFINITION. The commands of the PMC-24: one constructor of Instr per row of spec/opcode_table.json, with the
operands the spec gives the row. -/

namespace Sys2Proof

/-- A direction of carriage travel: FWD is left to right, P increasing (spec/00 "Carriage position"). -/
inductive Dir where
  | fwd
  | rev
deriving DecidableEq, Repr

/-- The quadrature channels of the encoder strip (spec/03 R44). -/
inductive Quad where
  | encA
  | encB
deriving DecidableEq, Repr

/-- The levels of the input pins as a power-on reset ends: the rate straps, the encoder channels, and whether the home sensor
is covered, the paper-end sensor sees paper, the cover is open and DFAULT_N is asserted. -/
structure Levels where
  strapB : Bool
  strapA : Bool
  homeCovered : Bool
  paperSeen : Bool
  coverOpen : Bool
  driveFault : Bool
  encA : Bool
  encB : Bool
deriving DecidableEq, Repr

/-- The 32 payload bytes of SET_MECH (spec/09 R195). -/
structure MechRequest where
  origin : Half
  lead0 : Byte
  lead1 : Byte
  lead2 : Byte
  lead3 : Byte
  phaseCount : Byte
  groupMap : List Byte
  window : Byte
deriving DecidableEq, Repr

/-- The payload of DEFINE_FORM (spec/09 R196): 17 bytes of fields, then the bytes of the bands as they stand. -/
structure FormRequest where
  slot : Byte
  path : Byte
  length : Half
  top : Half
  skip : Half
  skipOn : Byte
  copies : Byte
  cap : Byte
  bidir : Byte
  idle : Half
  offset : Half
  bandCount : Byte
  bandData : List Byte
deriving DecidableEq, Repr

/-- The ten payload bytes of OPEN_PASS (spec/09 R197). -/
structure PassRequest where
  tag : Byte
  density : Byte
  start : Half
  span : Half
  pref : Byte
  distance : Half
  flags : Byte
deriving DecidableEq, Repr

/-- The commands. The 21 requests stand for the completion of a valid frame of their kind (spec/09 R187). -/
inductive Instr where
  | powerOnReset (levels : Levels)
  | resetNAssert
  | resetNRelease (strapB strapA : Bool)
  | warmReset (strapB strapA : Bool)
  | frameComplete (byte : Byte)
  | lengthFault (byte : Byte)
  | lineFault
  | byteGapTimerExpiry
  | replySent
  | identify
  | getStatus
  | readEvents
  | setAttnMask (mask : Word)
  | reset
  | setMech (request : MechRequest)
  | setPinMap (outputs : List Byte)
  | defineForm (request : FormRequest)
  | readForm (slot : Byte)
  | selectForm (slot : Byte)
  | setTof
  | openPass (request : PassRequest)
  | image (tag : Byte) (offset : Half) (count : Byte) (data : List Byte)
  | closePass (tag : Byte)
  | queueAdvance (tag : Byte) (distance : Half) (flags : Byte)
  | cancelEntry (tag : Byte)
  | pause
  | resume
  | abort
  | clearFault
  | home
  | msTick
  | coolingTick
  | windowTimerExpiry
  | tearIdleTimerExpiry
  | stallTimerExpiry
  | restDetected
  | brakeRampEnd
  | encoderEdge (channel : Quad)
  | homeSensorChange (covered : Bool)
  | burstSlot
  | burstEnd
  | driveFault (asserted : Bool)
  | coverOpen
  | coverClose
  | paperSnsNoPaper
  | paperSnsPaper
  | feedUnit
  | paperMotionComplete
  | takeUp
  | prep
  | masking
  | heatCheck
  | position
  | sweepOrder
  | resumeSuspended
  | advanceOrder
  | advanceEntryOrder
  | lookAheadPlan
  | entryAborted
  | byteReceived (byte : Byte)
deriving DecidableEq, Repr

end Sys2Proof
end

