-- ==== Sys2Proof/Config.lean ====
section
/-! DEFINITION. What the PMC-24 fixes: its capacities, thresholds and durations; and the one value the manual leaves to
the wiring, which has no body. -/

namespace Sys2Proof.Config

/-- Entries the Print Queue holds (spec/02 R20). -/
def queueCapacity : Nat := 8

/-- Blocks of the Image Pool (spec/02 R38). -/
def poolBlocks : Nat := 128

/-- Columns of one block (spec/02 R38). -/
def blockColumns : Nat := 64

/-- Slots of an entry's block list (spec/02 R21). -/
def blockSlots : Nat := 51

/-- Replies the reply FIFO holds (spec/09 R186). -/
def fifoCapacity : Nat := 2

/-- Records the completion list holds (spec/08 R168). -/
def recordCapacity : Nat := 8

/-- Records one READ_EVENTS removes at most (spec/08 R170). -/
def recordsPerRead : Nat := 4

/-- Slots of the Form Table (spec/06 R123). -/
def formSlots : Nat := 16

/-- The highest carriage position (spec/03 R44). -/
def travelEnd : Nat := 21599

/-- The park position (spec/03 R52). -/
def parkPosition : Nat := 360

/-- P at the covering edge of the home sensor (spec/03 R51). -/
def homePosition : Nat := 120

/-- Rightward travel within which the clearing move must uncover the sensor (spec/03 R50). -/
def clearLimit : Int := 720

/-- Leftward travel within which the seek must cover the sensor (spec/03 R51). -/
def seekLimit : Int := 23040

/-- Duration of the stall timer in ms (spec/03 R46). -/
def stallMs : Nat := 20

/-- Duration of the byte-gap timer in ms (spec/08 R177). -/
def byteGapMs : Nat := 6

/-- The lag of pin column B behind pin column A in counts (spec/01 R1). -/
def stagger : Int := 36

/-- The highest heat value (spec/04 R86). -/
def heatMax : Nat := 16383

/-- The heat value of every output at power-on reset (spec/04 R86). -/
def heatPowerOn : Nat := 4096

/-- Hmax at and above which HEAD_HOT holds, and below which the cool-down wait ends (spec/04 R89, R91). -/
def heatHot : Nat := 4096

/-- Hmax below which a thermal suspend may be resumed (spec/04 R91). -/
def heatResume : Nat := 3072

/-- Hmax at and above which no plan is made (spec/04 R90). -/
def heatNoPlan : Nat := 5120

/-- The heat value at which a firing raises a thermal suspend trigger (spec/04 R92). -/
def heatSuspend : Nat := 6144

/-- PE when the tail passes the paper-end sensor (spec/05 R102). -/
def paperEndSpan : Nat := 540

/-- Most feed units of a ramp-down (spec/05 R107). -/
def rampUnits : Nat := 40

/-- Free blocks at and above which QUEUE_ROOM can hold (spec/08 R164). -/
def roomBlocks : Nat := 52

/-- The attention mask at power-on: IDLE and QUEUE_ROOM masked (spec/08 R167, spec/09 R195). -/
def maskPowerOn : Word := 0x00300000#32

/-- The mask bits that name an event or a condition (spec/09 R195). -/
def maskNamed : Word := 0x007F0FFF#32

/-- The part code (spec/08 R173). -/
def partCode : Half := 0x24C7#16

/-- The silicon revision code (spec/08 R173). -/
def revision : Byte := 0x01#8

/-- Whether ENC_A leads ENC_B while the carriage moves to the right. The order of the channels' edges gives the direction
(spec/03 R44), and the manual does not say which order is which: a free value (log entry 6). -/
opaque encALeads : Bool

end Sys2Proof.Config
end

