-- ==== Sys2Proof/Machine/State.lean ====
section
/-! DEFINITION. The state of the PMC-24, block by block, as plain data, and the state after power-on reset. -/

namespace Sys2Proof.Machine

/-! ## Records shared by the blocks -/

/-- The three column densities (spec/00 "Columns and densities"). -/
inductive Density where
  | d60
  | d120
  | d240
deriving DecidableEq, Repr

/-- A print entry's direction preference (spec/02 R21). -/
inductive Preference where
  | fwd
  | rev
  | any
deriving DecidableEq, Repr

/-- The two compare channels, one for each pin column (spec/03 R58). -/
inductive Chan where
  | a
  | b
deriving DecidableEq, Repr

/-- A paper advance: a signed distance in feed units, or a form feed (spec/02 R21, R22). -/
inductive Advance where
  | distance (n : Int)
  | formFeed
deriving DecidableEq, Repr

/-- The paper path of a profile (spec/06 R124). -/
inductive PaperPath where
  | tractor
  | friction
deriving DecidableEq, Repr

/-! ## Print Queue and Image Pool -/

/-- The states of a queue entry (spec/02 R24). -/
inductive EntryState where
  | opened
  | ready
  | active
  | suspended
  | halted
  | advancing
deriving DecidableEq, Repr

/-- A resume column: an absolute column, or done (spec/02 R21). -/
inductive Resume where
  | column (c : Nat)
  | done
deriving DecidableEq, Repr

/-- The fields that a print entry has beside those of every entry (spec/02 R21). -/
structure Pass where
  density : Density
  start : Nat
  span : Nat
  pref : Preference
  slots : List (Option Nat)
  suppressed : Option Rows
  dir : Option Dir
  resumeA : Option Resume
  resumeB : Option Resume
  dotsFired : Nat
  dotsSuppressed : Nat
  dotsLost : Nat
  sweeps : Nat
  deadline : Option Word
deriving DecidableEq, Repr

/-- A queue entry (spec/02 R21, R22). It is of kind PRINT when it has a pass and of kind ADVANCE when it has none. -/
structure Entry where
  tag : Byte
  state : EntryState
  advance : Advance
  remaining : Option Int
  pass : Option Pass
deriving DecidableEq, Repr

/-- One column of a block: its dots, and their fired and lost marks (spec/02 R23). Bit r stands for image row r. -/
structure Column where
  dots : Rows
  fired : Rows
  lost : Rows
deriving DecidableEq, Repr

/-- The Image Pool (spec/02 R38): bit b of `free` says that block b is free; `cells` lists the columns that are not
blank, column k of block b at address 64·b + k, addresses strictly rising. -/
structure Pool where
  free : BitVec 128
  cells : List (Nat × Column)
deriving DecidableEq, Repr

/-! ## Plans, channels and bursts -/

/-- One element of a firing list: an absolute column and its firing position (spec/01 R7). -/
structure Elem where
  column : Nat
  pos : Int
deriving DecidableEq, Repr

/-- A sweep plan (spec/01 R16). -/
structure Plan where
  tag : Byte
  dir : Dir
  grade : Nat
  lead : Nat
  runUp : Nat
  start : Int
  stop : Int
  listA : List Elem
  listB : List Elem
deriving DecidableEq, Repr

/-- A compare channel: its firing list, its next index and its armed flag (spec/03 R58). -/
structure Channel where
  list : List Elem
  next : Nat
  armed : Bool
deriving DecidableEq, Repr

/-- A burst (spec/04 R74). `groups` holds the (row, output) pairs of each group in turn. `orphan` says that the burst's
entry has left the queue (R76). -/
structure Burst where
  chan : Chan
  tag : Byte
  column : Nat
  groups : List (List (Nat × Nat))
  order : Nat
  orphan : Bool
deriving DecidableEq, Repr

/-- The burst that runs, and the slot it comes to next (spec/04 R75). -/
structure Running where
  burst : Burst
  next : Nat
deriving DecidableEq, Repr

/-- The Head Driver (spec/04 R73, R77). `matchCount` counts the matching edges and dates the bursts. -/
structure Driver where
  pinMap : List Nat
  running : Option Running
  pendA : Option Burst
  pendB : Option Burst
  matchCount : Nat
deriving DecidableEq, Repr

/-! ## Carriage Controller -/

/-- The seven carriage states (spec/03 R45). -/
inductive CarState where
  | unhomed
  | homing
  | idle
  | approach
  | runup
  | sweep
  | braking
deriving DecidableEq, Repr

/-- The carriage motor drive: off, on (moving or braking), or released to settle (spec/03 R45, R47). -/
inductive Drive where
  | off
  | on
  | released
deriving DecidableEq, Repr

/-- Who gave a homing order: the HOME request, the runner, or CLEAR_FAULT (spec/03 R52, spec/07 R157, R158). -/
inductive HomingSource where
  | host
  | runner
  | clearFault
deriving DecidableEq, Repr

/-- The stages of a homing (spec/03 R50 to R52): the clearing move, its stop, the seek, its stop, the park move. -/
inductive HomingStage where
  | clearing
  | clearStop
  | seek
  | seekStop
  | park
deriving DecidableEq, Repr

/-- A homing in progress: who gave it, its stage, and the net travel counted in the clearing move's or the seek's
direction. -/
structure Homing where
  source : HomingSource
  stage : HomingStage
  travel : Int
deriving DecidableEq, Repr

/-- Why a suspended entry waits (spec/07 R137). -/
inductive SuspendReason where
  | thermal
  | hold
deriving DecidableEq, Repr

/-- What a BRAKING is for: the end of a sweep (R60), a suspend (R62, R63), a halt (R67), an ABORT (R70). -/
inductive BrakeCause where
  | sweepEnd (grade : Nat)
  | suspend (reason : SuspendReason) (grade : Nat)
  | halt
  | abort
deriving DecidableEq, Repr

/-- The firing lists of a stopped sweep whose resume columns are still to be written (spec/03 R61). -/
structure ResumeDue where
  listA : List Elem
  listB : List Elem
deriving DecidableEq, Repr

/-- The Carriage Controller (spec/03 R44, R45, R57, R58). -/
structure Carriage where
  state : CarState
  pos : Option Nat
  drive : Drive
  homing : Option Homing
  target : Option Nat
  plan : Option Plan
  chanA : Channel
  chanB : Channel
  brake : Option BrakeCause
  resumeDue : Option ResumeDue
deriving DecidableEq, Repr

/-! ## Queue Runner -/

/-- The phases of the head entry (spec/07 R137). -/
inductive HeadPhase where
  | noPhase
  | retract
  | prep
  | coolWait
  | position
  | sweep
  | advance
deriving DecidableEq, Repr

/-- The point a phase has reached (spec/07 R138, R140 to R142): PREP's skip check is next; PREP has ended and masking is
next; the heat check before a plan is next. -/
inductive Point where
  | skipCheck
  | mask
  | heat
deriving DecidableEq, Repr

/-- The latched faults (spec/07 R156). -/
inductive FaultCode where
  | stall
  | homeFail
  | headDrive
deriving DecidableEq, Repr

/-- The fault record (spec/07 R137). -/
structure FaultRecord where
  code : FaultCode
  tag : Option Byte
  pos : Option Nat
deriving DecidableEq, Repr

/-- The Queue Runner's record (spec/07 R137), with the plan it holds for the head entry (R143) and the point the head
phase has reached (R138). `firstOrderDue` says that the take-up has been taken and the first order it calls for, if any, is
still to be given (R139); it is the model's own (log entry 25). -/
structure Runner where
  phase : HeadPhase
  point : Point
  suspend : Option SuspendReason
  headPlan : Option Plan
  lookAhead : Option Plan
  pause : Bool
  fault : Option FaultRecord
  abortPending : Bool
  homingOwed : Bool
  firstOrderDue : Bool
deriving DecidableEq, Repr

/-! ## Paper Drive and Form Table -/

/-- The paper states (spec/05 R94). -/
inductive PaperState where
  | idle
  | advancing
  | retracting
  | tearParked
  | out
deriving DecidableEq, Repr

/-- The purposes of a paper order (spec/05 R95); an entry's advance carries the entry's tag. -/
inductive Purpose where
  | entryAdvance (tag : Byte)
  | skip
  | retract
  | tear
deriving DecidableEq, Repr

/-- What stopped a paper motion (spec/05 R107, R108). -/
inductive StopCause where
  | abort
  | fault
deriving DecidableEq, Repr

/-- A stop being carried out: its cause, and how many units its ramp-down may still move (spec/05 R107). -/
structure PaperStop where
  cause : StopCause
  ramp : Nat
deriving DecidableEq, Repr

/-- A paper motion in flight (spec/05 R95, R96): its purpose, its signed distance, the feed units issued, the paper path
it keeps, and the stop it is being brought to. -/
structure Motion where
  purpose : Purpose
  distance : Int
  moved : Nat
  path : PaperPath
  stop : Option PaperStop
deriving DecidableEq, Repr

/-- The form position record (spec/05 R94) and the motion in flight. -/
structure Paper where
  y : Nat
  a : Nat
  pe : Option Nat
  state : PaperState
  park : Option Nat
  motion : Option Motion
deriving DecidableEq, Repr

/-- The two tear fields of a TRACTOR profile (spec/06 R124). -/
structure Tear where
  idle : Nat
  offset : Nat
deriving DecidableEq, Repr

/-- A protected band (spec/06 R124). -/
structure Band where
  top : Nat
  height : Nat
deriving DecidableEq, Repr

/-- A form profile as held (spec/06 R124). -/
structure Profile where
  path : PaperPath
  length : Nat
  top : Nat
  skip : Nat
  skipOn : Bool
  copies : Nat
  cap : Nat
  bidir : Bool
  bands : List Band
  tear : Option Tear
deriving DecidableEq, Repr

/-- The Form Table (spec/06 R123). -/
structure Forms where
  slots : List (Option Profile)
  active : Nat
deriving DecidableEq, Repr

/-! ## Mechanical configuration, Event Unit, Time Base, Link Port, pins -/

/-- The mechanical configuration (spec/01 R3). -/
structure Mech where
  origin : Nat
  leads : List Nat
  phaseCount : Nat
  groupMap : List Nat
  window : Nat
deriving DecidableEq, Repr

/-- How an entry left the queue (spec/08 R169). -/
inductive RecordOutcome where
  | done
  | aborted
deriving DecidableEq, Repr

/-- A completion record (spec/08 R169). `print` says that its kind is PRINT. -/
structure Completion where
  tag : Byte
  print : Bool
  outcome : RecordOutcome
  fired : Nat
  suppressed : Nat
  lost : Nat
  sweeps : Nat
  time : Word
  y : Nat
deriving DecidableEq, Repr

/-- The Event Unit (spec/08 R161, R165, R168): the latched events (bit n is the event at mask bit n of R195), the
attention mask as R195 lays it out, and the completion list, oldest first. -/
structure Events where
  latched : BitVec 12
  mask : Word
  records : List Completion
deriving DecidableEq, Repr

/-- The Time Base (spec/08 R174 to R177). A timer is stopped (none) or running with the ticks left; at 0 ticks its
expiry is due. `coolingOwed` counts the cooling ticks given and not yet carried out. -/
structure TimeBase where
  ms : Word
  divider : Nat
  coolingOwed : Nat
  window : Option Nat
  tearIdle : Option Nat
  stall : Option Nat
  byteGap : Option Nat
deriving DecidableEq, Repr

/-- The states of the receive assembler (spec/09 R179). -/
inductive Assembler where
  | hunt
  | length
  | body
  | check
deriving DecidableEq, Repr

/-- The line rates (spec/09 R178), named by their bit/s. -/
inductive Rate where
  | r38400
  | r115200
  | r460800
  | r921600
deriving DecidableEq, Repr

/-- The Link Port (spec/09 R179, R186, R190). -/
structure Link where
  asm : Assembler
  buffer : List Byte
  frameLen : Option Nat
  fifo : List (List Byte)
  resetPending : Bool
  rate : Rate
deriving DecidableEq, Repr

/-- The input pins (spec/00 "Signal summary"). -/
structure Pins where
  strapB : Bool
  strapA : Bool
  homeCovered : Bool
  paperSeen : Bool
  coverOpen : Bool
  driveFault : Bool
  encA : Bool
  encB : Bool
  resetLow : Bool
deriving DecidableEq, Repr

/-- The outputs that carry pulses: the driver outputs pulsed in the slot now running and the length of the last pulse in
microseconds (spec/04 R75), and the signed tallies of the platen and tractor steps issued (spec/05 R96, R97). -/
structure Outputs where
  pinOut : Rows
  pulse : Nat
  platen : Int
  tractor : Int
deriving DecidableEq, Repr

/-! ## The machine -/

/-- The whole state of the block, and the commands that wait. -/
structure State where
  link : Link
  mech : Mech
  queue : List Entry
  pool : Pool
  runner : Runner
  carriage : Carriage
  driver : Driver
  heat : List Nat
  paper : Paper
  forms : Forms
  events : Events
  time : TimeBase
  pins : Pins
  outputs : Outputs
  pending : List Instr
deriving DecidableEq, Repr

/-- The reasons a step could stop with a fault. There is none: the part's own faults (STALL, HOME_FAIL, HEAD_DRIVE) are
state, kept in the fault record, and no command ends a run. -/
inductive Fault where
deriving DecidableEq, Repr

/-- The reasons a step could have no meaning. -/
inductive Refusal where
  /-- The command of this mnemonic has no meaning in the model. Raised only by an arm of exec that is not written yet; no
  arm raises it now. It is on the safe side: a refused step gives no next state. -/
  | notModelled (mnemonic : String)
deriving DecidableEq, Repr

/-! ## Replacing one block -/

def State.setLink (s : State) (x : Link) : State := { s with link := x }
def State.setMech (s : State) (x : Mech) : State := { s with mech := x }
def State.setQueue (s : State) (x : List Entry) : State := { s with queue := x }
def State.setPool (s : State) (x : Pool) : State := { s with pool := x }
def State.setRunner (s : State) (x : Runner) : State := { s with runner := x }
def State.setCarriage (s : State) (x : Carriage) : State := { s with carriage := x }
def State.setDriver (s : State) (x : Driver) : State := { s with driver := x }
def State.setHeat (s : State) (x : List Nat) : State := { s with heat := x }
def State.setPaper (s : State) (x : Paper) : State := { s with paper := x }
def State.setForms (s : State) (x : Forms) : State := { s with forms := x }
def State.setEvents (s : State) (x : Events) : State := { s with events := x }
def State.setTime (s : State) (x : TimeBase) : State := { s with time := x }
def State.setPins (s : State) (x : Pins) : State := { s with pins := x }
def State.setOutputs (s : State) (x : Outputs) : State := { s with outputs := x }
def State.setPending (s : State) (x : List Instr) : State := { s with pending := x }

/-! ## The state after power-on reset -/

/-- The default profile (spec/06 R136). -/
def Profile.default : Profile where
  path := .tractor
  length := 3960
  top := 0
  skip := 0
  skipOn := false
  copies := 1
  cap := 3
  bidir := true
  bands := []
  tear := some { idle := 0, offset := 0 }

/-- The power-on mechanical configuration (spec/01 R4). -/
def Mech.powerOn : Mech where
  origin := 1080
  leads := [3, 6, 9, 12]
  phaseCount := 2
  groupMap := [0, 1, 0, 1, 0, 1, 0, 1, 0, 1, 0, 1, 0, 1, 0, 1, 0, 1, 0, 1, 0, 1, 0, 1]
  window := 100

/-- An empty, unarmed compare channel. -/
def Channel.empty : Channel where
  list := []
  next := 0
  armed := false

/-- The Carriage Controller's values after a reset (spec/03 R49). -/
def Carriage.reset : Carriage where
  state := .unhomed
  pos := none
  drive := .off
  homing := none
  target := none
  plan := none
  chanA := Channel.empty
  chanB := Channel.empty
  brake := none
  resumeDue := none

/-- The Queue Runner's values after a reset (spec/07 R137). -/
def Runner.reset : Runner where
  phase := .noPhase
  point := .skipCheck
  suspend := none
  headPlan := none
  lookAhead := none
  pause := false
  fault := none
  abortPending := false
  homingOwed := false
  firstOrderDue := false

/-- The Image Pool after a reset: every block free (spec/02 R43). -/
def Pool.reset : Pool where
  free := BitVec.allOnes 128
  cells := []

/-- The Event Unit's values after a reset (spec/08 R167, R168). -/
def Events.reset : Events where
  latched := 0#12
  mask := Config.maskPowerOn
  records := []

/-- The machine right after power-on reset: every block at the value its chapter gives, with the straps low, the home
sensor uncovered, paper present, the cover closed and DFAULT_N not asserted (log entry 3). -/
def State.reset : State where
  link := { asm := .hunt, buffer := [], frameLen := none, fifo := [], resetPending := false, rate := .r38400 }
  mech := Mech.powerOn
  queue := []
  pool := Pool.reset
  runner := Runner.reset
  carriage := Carriage.reset
  driver :=
    { pinMap := List.range 24, running := none, pendA := none, pendB := none, matchCount := 0 }
  heat := List.replicate 24 Config.heatPowerOn
  paper := { y := 0, a := 0, pe := none, state := .idle, park := none, motion := none }
  forms := { slots := some Profile.default :: List.replicate 15 none, active := 0 }
  events := Events.reset
  time :=
    { ms := 0#32, divider := 0, coolingOwed := 0, window := none, tearIdle := none, stall := none, byteGap := none }
  pins :=
    { strapB := false, strapA := false, homeCovered := false, paperSeen := true, coverOpen := false,
      driveFault := false, encA := false, encB := false, resetLow := false }
  outputs := { pinOut := 0#24, pulse := 0, platen := 0, tractor := 0 }
  pending := []

end Sys2Proof.Machine
end

