-- ==== Sys2Proof/Machine/Operands.lean ====
section
/-! DEFINITION. The operand forms of the line: byte order, enumerated codes, image columns, and the payload layouts of
spec/09 section 9.7, read and written. -/

namespace Sys2Proof.Machine

/-! ## Byte order (R193: multi-byte fields are little-endian) -/

/-- The two-byte field whose first byte is `lo`. -/
def half (lo hi : Byte) : Half := hi ++ lo

/-- The four-byte field whose first byte is `b0`. -/
def word (b0 b1 b2 b3 : Byte) : Word := b3 ++ b2 ++ b1 ++ b0

/-- The low `k` bytes of a number, least significant first. -/
def bytesLE : Nat → Nat → List Byte
  | 0, _ => []
  | k + 1, n => BitVec.ofNat 8 n :: bytesLE k (n / 256)

/-! ## Enumerated codes (R193) -/

def densityOf (b : Byte) : Option Density :=
  match b.toNat with
  | 0 => some .d60
  | 1 => some .d120
  | 2 => some .d240
  | _ => none

def preferenceOf (b : Byte) : Option Preference :=
  match b.toNat with
  | 0 => some .fwd
  | 1 => some .rev
  | 2 => some .any
  | _ => none

def preferenceCode : Preference → Byte
  | .fwd => 0#8
  | .rev => 1#8
  | .any => 2#8

def pathOf (b : Byte) : Option PaperPath :=
  match b.toNat with
  | 0 => some .tractor
  | 1 => some .friction
  | _ => none

def pathCode : PaperPath → Byte
  | .tractor => 0#8
  | .friction => 1#8

def yesNoOf (b : Byte) : Option Bool :=
  match b.toNat with
  | 0 => some false
  | 1 => some true
  | _ => none

/-- The one-byte yes/no flag; also one bit of a flags byte. -/
def boolByte (b : Bool) : Byte := if b then 1#8 else 0#8

def entryStateCode : EntryState → Byte
  | .opened => 0#8
  | .ready => 1#8
  | .active => 2#8
  | .suspended => 3#8
  | .halted => 4#8
  | .advancing => 5#8

def carStateCode : CarState → Byte
  | .unhomed => 0#8
  | .homing => 1#8
  | .idle => 2#8
  | .approach => 3#8
  | .runup => 4#8
  | .sweep => 5#8
  | .braking => 6#8

def paperStateCode : PaperState → Byte
  | .idle => 0#8
  | .advancing => 1#8
  | .retracting => 2#8
  | .tearParked => 3#8
  | .out => 4#8

def faultCodeByte : FaultCode → Byte
  | .stall => 1#8
  | .homeFail => 2#8
  | .headDrive => 3#8

/-- A flags byte from its bits, bit 0 first. -/
def flagsByte : List Bool → Byte
  | [] => 0#8
  | b :: bs => (flagsByte bs <<< 1) ||| boolByte b

/-! ## Sets of rows and image columns (R194) -/

/-- The set of the rows (or outputs) below 24 that satisfy a test. -/
def rowsWhere (p : Nat → Bool) : Rows :=
  (List.range 24).foldl (fun acc r => if p r then acc ||| BitVec.twoPow 24 r else acc) 0#24

/-- How many rows a set holds. -/
def rowCount (r : Rows) : Nat := (List.range 24).countP (fun k => r.getLsbD k)

/-- The rows of a set, ascending. -/
def rowList (r : Rows) : List Nat := (List.range 24).filter (fun k => r.getLsbD k)

/-- The dots of one column: row r lies in byte r/8, at bit 7 − (r mod 8) (R194). -/
def columnDots (b0 b1 b2 : Byte) : Rows :=
  rowsWhere (fun r => (if r < 8 then b0 else if r < 16 then b1 else b2).getLsbD (7 - r % 8))

/-- The columns of an IMAGE's data, three bytes each. -/
def columnsOf : List Byte → List Rows
  | b0 :: b1 :: b2 :: rest => columnDots b0 b1 b2 :: columnsOf rest
  | _ => []

/-! ## Request payloads (R195 to R197) -/

def readMask : List Byte → Option Word
  | [b0, b1, b2, b3] => some (word b0 b1 b2 b3)
  | _ => none

def readMech : List Byte → Option MechRequest
  | o0 :: o1 :: l0 :: l1 :: l2 :: l3 :: f :: rest =>
    if rest.length = 25 then
      some { origin := half o0 o1, lead0 := l0, lead1 := l1, lead2 := l2, lead3 := l3, phaseCount := f,
             groupMap := rest.take 24, window := rest.getD 24 0#8 }
    else none
  | _ => none

def readForm : List Byte → Option FormRequest
  | s :: p :: l0 :: l1 :: t0 :: t1 :: k0 :: k1 :: so :: c :: v :: d :: i0 :: i1 :: o0 :: o1 :: n :: rest =>
    some { slot := s, path := p, length := half l0 l1, top := half t0 t1, skip := half k0 k1, skipOn := so,
           copies := c, cap := v, bidir := d, idle := half i0 i1, offset := half o0 o1, bandCount := n,
           bandData := rest }
  | _ => none

def readPass : List Byte → Option PassRequest
  | [t, d, s0, s1, w0, w1, p, n0, n1, f] =>
    some { tag := t, density := d, start := half s0 s1, span := half w0 w1, pref := p, distance := half n0 n1,
           flags := f }
  | _ => none

/-- The bands of a DEFINE_FORM's band data, four bytes each (R196). -/
def bandsOf : List Byte → List Band
  | t0 :: t1 :: h0 :: h1 :: rest => { top := (half t0 t1).toNat, height := (half h0 h1).toNat } :: bandsOf rest
  | _ => []

/-! ## Reply data -/

/-- The profile fields of a READ_FORM reply, from byte 2 on (R196). -/
def profileBytes (p : Profile) : List Byte :=
  [pathCode p.path] ++ bytesLE 2 p.length ++ bytesLE 2 p.top ++ bytesLE 2 p.skip ++ [boolByte p.skipOn]
    ++ bytesLE 1 p.copies ++ bytesLE 1 p.cap ++ [boolByte p.bidir]
    ++ bytesLE 2 ((p.tear.map Tear.idle).getD 0) ++ bytesLE 2 ((p.tear.map Tear.offset).getD 0)
    ++ bytesLE 1 p.bands.length ++ p.bands.flatMap (fun b => bytesLE 2 b.top ++ bytesLE 2 b.height)

/-- A completion record on the line, 18 bytes (R199). -/
def completionBytes (c : Completion) : List Byte :=
  [c.tag, flagsByte [!c.print, c.outcome == .aborted]] ++ bytesLE 3 c.fired ++ bytesLE 3 c.suppressed
    ++ bytesLE 3 c.lost ++ bytesLE 1 c.sweeps ++ bytesLE 4 c.time.toNat ++ bytesLE 2 c.y

end Sys2Proof.Machine
end

