-- ==== Sys2Proof/Machine/Ops.lean ====
section
/-! DEFINITION. The named operations the commands share: events and records, the Image Pool, queue entries, heat, holds
and rest, timers. -/

namespace Sys2Proof.Machine

/-! ## Event Unit -/

/-- The twelve events (spec/08 R161). -/
inductive Event where
  | passDone
  | entryAborted
  | autoClosed
  | sweepSuspended
  | dotsLost
  | faultRaised
  | paperEnd
  | paperOutStop
  | tearParked
  | recordOverwritten
  | linkError
  | homed
deriving DecidableEq, Repr

/-- The position of an event in the event set and the mask (spec/09 R195). -/
def Event.bit : Event → Nat
  | .passDone => 0
  | .entryAborted => 1
  | .autoClosed => 2
  | .sweepSuspended => 3
  | .dotsLost => 4
  | .faultRaised => 5
  | .paperEnd => 6
  | .paperOutStop => 7
  | .tearParked => 8
  | .recordOverwritten => 9
  | .linkError => 10
  | .homed => 11

/-- Latch an event; one already latched stays latched (spec/08 R161). -/
def latch (e : Event) (s : State) : State :=
  s.setEvents { s.events with latched := s.events.latched ||| BitVec.twoPow 12 e.bit }

/-- A completion record joins the list; a full list drops its oldest and latches RECORD_OVERWRITTEN (spec/08 R168). -/
def pushRecord (c : Completion) (s : State) : State :=
  if s.events.records.length < Config.recordCapacity then
    s.setEvents { s.events with records := s.events.records ++ [c] }
  else
    latch .recordOverwritten
      (s.setEvents { s.events with records := s.events.records.drop (s.events.records.length - 7) ++ [c] })

/-! ## Image Pool -/

/-- A blank column, which is also what an unlisted address reads as (spec/02 R39, R40). -/
def Column.blank : Column where
  dots := 0#24
  fired := 0#24
  lost := 0#24

/-- The column at an address. -/
def cellsRead : List (Nat × Column) → Nat → Column
  | [], _ => Column.blank
  | (a, c) :: t, k => if a = k then c else cellsRead t k

/-- Put a column at an address, keeping the addresses rising and blank columns unlisted. -/
def cellsWrite : List (Nat × Column) → Nat → Column → List (Nat × Column)
  | [], k, v => if v = Column.blank then [] else [(k, v)]
  | (a, c) :: t, k, v =>
    if k < a then (if v = Column.blank then (a, c) :: t else (k, v) :: (a, c) :: t)
    else if k = a then (if v = Column.blank then t else (k, v) :: t)
    else (a, c) :: cellsWrite t k v

/-- Clear the 64 columns of a block. -/
def cellsErase (l : List (Nat × Column)) (block : Nat) : List (Nat × Column) :=
  l.filter (fun x => x.1 / Config.blockColumns != block)

/-- The canonical form: addresses strictly rising, no blank column listed. -/
def cellsWf : List (Nat × Column) → Bool
  | [] => true
  | [(_, c)] => decide (c ≠ Column.blank)
  | (a, c) :: (b, d) :: t => decide (c ≠ Column.blank) && decide (a < b) && cellsWf ((b, d) :: t)

/-- The pool's cells are in canonical form. -/
def Pool.wf (p : Pool) : Bool := cellsWf p.cells

/-- The column of the pool at an address. -/
def Pool.read (p : Pool) (k : Nat) : Column := cellsRead p.cells k

/-- Put a column into the pool. -/
def Pool.write (p : Pool) (k : Nat) (c : Column) : Pool := { p with cells := cellsWrite p.cells k c }

/-- The numbers of the free blocks, ascending. -/
def Pool.freeList (p : Pool) : List Nat := (List.range Config.poolBlocks).filter (fun b => p.free.getLsbD b)

/-- The count of free blocks (spec/02 R38). -/
def Pool.freeCount (p : Pool) : Nat := p.freeList.length

/-- Take a block: it is no longer free, and it is cleared (spec/02 R39). -/
def Pool.take (p : Pool) (b : Nat) : Pool :=
  { free := p.free &&& ~~~(BitVec.twoPow 128 b), cells := cellsErase p.cells b }

/-- Free a block (spec/02 R41). -/
def Pool.release (p : Pool) (b : Nat) : Pool :=
  { free := p.free ||| BitVec.twoPow 128 b, cells := cellsErase p.cells b }

/-- Free every block of a block list. -/
def Pool.releaseAll (p : Pool) : List (Option Nat) → Pool
  | [] => p
  | none :: t => p.releaseAll t
  | some b :: t => (p.release b).releaseAll t

/-! ## Queue entries -/

/-- An entry the runner has taken up (spec/02 R36). -/
def EntryState.started : EntryState → Bool
  | .opened => false
  | .ready => false
  | .active => true
  | .suspended => true
  | .halted => true
  | .advancing => true

/-- The entry that holds a tag. -/
def findEntry (q : List Entry) (tag : Byte) : Option Entry := q.find? (fun e => e.tag == tag)

/-- Change the entry that holds a tag. -/
def updateEntry (q : List Entry) (tag : Byte) (f : Entry → Entry) : List Entry :=
  q.map (fun e => if e.tag = tag then f e else e)

/-- The tag of the head entry. -/
def headTag (s : State) : Option Byte := s.queue.head?.map Entry.tag

/-- Change the head entry. -/
def mapHead (f : Entry → Entry) (s : State) : State :=
  match s.queue with
  | [] => s
  | e :: rest => s.setQueue (f e :: rest)

/-- Change the pass of the head entry. -/
def mapHeadPass (f : Pass → Pass) (s : State) : State := mapHead (fun e => { e with pass := e.pass.map f }) s

/-- Set the state of the head entry. -/
def setHeadState (st : EntryState) (s : State) : State := mapHead (fun e => { e with state := st }) s

/-- Some entry is ACTIVE, SUSPENDED, HALTED or ADVANCING. -/
def anyStarted (s : State) : Bool := s.queue.any (fun e => e.state.started)

/-- The block slots an entry holds. -/
def Entry.slots (e : Entry) : List (Option Nat) := (e.pass.map Pass.slots).getD []

/-- Give back the blocks of an entry that leaves the queue (spec/02 R41). -/
def freeEntry (e : Entry) (s : State) : State := s.setPool (s.pool.releaseAll e.slots)

/-- Give back the blocks of several entries. -/
def freeEntries : List Entry → State → State
  | [], s => s
  | e :: t, s => freeEntries t (freeEntry e s)

/-- The completion record of an entry (spec/07 R149, R154). -/
def completionOf (e : Entry) (o : RecordOutcome) (s : State) : Completion where
  tag := e.tag
  print := e.pass.isSome
  outcome := o
  fired := (e.pass.map Pass.dotsFired).getD 0
  suppressed := (e.pass.map Pass.dotsSuppressed).getD 0
  lost := (e.pass.map Pass.dotsLost).getD 0
  sweeps := (e.pass.map Pass.sweeps).getD 0
  time := s.time.ms
  y := s.paper.y

/-- The address of pass column c′ in the pool, when its slot holds a block (spec/02 R40). -/
def Pass.address (p : Pass) (c : Nat) : Option Nat :=
  (p.slots.getD (c / Config.blockColumns) none).map (fun b => b * Config.blockColumns + c % Config.blockColumns)

/-- Pass column c′ as the pool holds it; blank when its slot is absent (spec/02 R40). -/
def passColumn (pool : Pool) (p : Pass) (c : Nat) : Column :=
  match p.address c with
  | none => Column.blank
  | some k => pool.read k

/-- Change absolute column c of the head entry's image. -/
def updateHeadColumn (c : Nat) (f : Column → Column) (s : State) : State :=
  match s.queue.head?.bind Entry.pass with
  | none => s
  | some p =>
    match p.address (c - p.start) with
    | none => s
    | some k => s.setPool (s.pool.write k (f (s.pool.read k)))

/-! ## Heat Model -/

/-- Hmax, the largest heat value (spec/04 R89). -/
def hmaxOf (h : List Nat) : Nat := h.foldl max 0

/-- Hmax of the state. -/
def hmax (s : State) : Nat := hmaxOf s.heat

/-- One firing of output p adds `e`, up to 16383 (spec/04 R87). -/
def chargeHeat (h : List Nat) (p e : Nat) : List Nat := h.set p (min Config.heatMax (h.getD p 0 + e))

/-- One cooling tick lowers a heat value by a thirty-second of it, rounded up (spec/04 R88). -/
def coolHeat (h : Nat) : Nat := h - (h + 31) / 32

/-! ## Form Table -/

/-- The active profile. The active slot always holds one (spec/06 R123). -/
def activeProfile (s : State) : Profile := (s.forms.slots.getD s.forms.active none).getD Profile.default

/-! ## Holds, rest and motion -/

/-- Some hold is present: the pause flag, a latched fault or an open cover (spec/07 R138). -/
def held (s : State) : Bool := s.runner.pause || s.runner.fault.isSome || s.pins.coverOpen

/-- The carriage is at rest: IDLE or UNHOMED (spec/03 R45). -/
def CarState.atRest : CarState → Bool
  | .idle => true
  | .unhomed => true
  | .homing => false
  | .approach => false
  | .runup => false
  | .sweep => false
  | .braking => false

def carriageAtRest (s : State) : Bool := s.carriage.state.atRest

/-- Paper motion is in flight (spec/05 R94). -/
def PaperState.inFlight : PaperState → Bool
  | .idle => false
  | .advancing => true
  | .retracting => true
  | .tearParked => false
  | .out => false

def paperInFlight (s : State) : Bool := s.paper.state.inFlight

/-- A homing that CLEAR_FAULT started is owed or in flight; the runner goes on only when it has ended (spec/07 R158). -/
def clearHoming (s : State) : Bool :=
  s.runner.homingOwed || (s.carriage.homing.any (fun h => h.source == .clearFault))

/-- A motion that a fault stopped has not come to rest: a paper stop (spec/05 R108) or the braking of a halt (spec/03 R67).
The runner gives no order until it has, also when CLEAR_FAULT has been taken (spec/07 R157). -/
def faultStopping (s : State) : Bool :=
  s.paper.motion.any (fun m => m.stop.any (fun t => t.cause == .fault))
    || (s.carriage.state == .braking && s.carriage.brake == some .halt)

/-- What CLEAR_FAULT leaves to be waited for before the runner gives an order (spec/07 R157, R158). -/
def recovering (s : State) : Bool := clearHoming s || faultStopping s

/-- An entry may be taken up, as far as holds and a homing that CLEAR_FAULT started go. A motion that a fault stopped does
not keep the take-up itself waiting, which is no order (spec/07 R139, R157, R158, log entry 18). -/
def mayTakeUp (s : State) : Bool := !held s && !clearHoming s

/-- The runner may give orders and plan (spec/07 R138, R157, R158). -/
def runnerFree (s : State) : Bool := !held s && !recovering s

/-- A skip or an advance entry's order may be given: no hold is present, or it is the first order of an entry whose take-up
came before the hold (spec/07 R138, R139, log entry 25). -/
def mayOrderFirst (s : State) : Bool := (s.runner.firstOrderDue || !held s) && !recovering s

/-- The first order of the entry taken up has been given, or there is none; what follows waits for the holds
(spec/07 R139). -/
def firstOrderGiven (s : State) : State := s.setRunner { s.runner with firstOrderDue := false }

/-- No burst runs and none waits. -/
def driverIdle (s : State) : Bool :=
  s.driver.running.isNone && s.driver.pendA.isNone && s.driver.pendB.isNone

/-- The entry at the head, when it is a print entry in the given state. -/
def headPrint (s : State) (st : EntryState) : Bool :=
  s.queue.head?.any (fun e => e.state == st && e.pass.isSome)

/-! ## Timers -/

/-- One 1 ms tick on a timer: a running timer has a tick less; one whose expiry is due stays due (spec/08 R176). -/
def tickTimer : Option Nat → Option Nat
  | none => none
  | some n => some (n - 1)

/-- Start the stall timer, which is also the rest timer (spec/03 R46, R47). -/
def startStall (s : State) : State := s.setTime { s.time with stall := some Config.stallMs }

def stopStall (s : State) : State := s.setTime { s.time with stall := none }

def startByteGap (s : State) : State := s.setTime { s.time with byteGap := some Config.byteGapMs }

def stopByteGap (s : State) : State := s.setTime { s.time with byteGap := none }

def stopWindow (s : State) : State := s.setTime { s.time with window := none }

/-- The tear idle time of the active profile in units of 100 ms: 0 when tear-off is off or the path is FRICTION
(spec/05 R110, spec/06 R124). -/
def tearIdleOf (p : Profile) : Nat :=
  match p.path with
  | .friction => 0
  | .tractor => (p.tear.map Tear.idle).getD 0

/-- The six conditions under which the tear timer runs (spec/05 R110), outside a reset held by RESET_N. -/
def tearReady (s : State) : Bool :=
  !s.pins.resetLow && tearIdleOf (activeProfile s) != 0 && s.queue.isEmpty && s.paper.state == .idle
    && carriageAtRest s && s.runner.fault.isNone && !s.runner.pause

/-- Start the tear timer when its conditions have come to hold, and stop it when one has ceased (spec/05 R110). -/
def settleTear (s : State) : State :=
  if tearReady s then
    match s.time.tearIdle with
    | none => s.setTime { s.time with tearIdle := some (100 * tearIdleOf (activeProfile s)) }
    | some _ => s
  else s.setTime { s.time with tearIdle := none }

/-- Stop the tear timer, as a change of the active profile does before it starts afresh (spec/05 R110). -/
def stopTear (s : State) : State := s.setTime { s.time with tearIdle := none }

/-! ## Retirement -/

/-- The head phase returns to none (spec/07 R137, R149). -/
def clearPhase (s : State) : State :=
  s.setRunner { s.runner with
    phase := .noPhase, point := .skipCheck, suspend := none, headPlan := none, firstOrderDue := false }

/-- Retirement of the head entry in one act: its DONE record, its blocks, its place, PASS_DONE (spec/07 R149). -/
def retire (s : State) : State :=
  match s.queue with
  | [] => s
  | e :: rest =>
    latch .passDone
      (clearPhase ((freeEntry e (pushRecord (completionOf e .done s) s)).setQueue rest))

end Sys2Proof.Machine
end

