-- ==== Sys2Proof/Machine/Flags.lean ====
section
/-! DEFINITION. The views of the state the part shows: the condition set, the hold reasons, the flags of GET_STATUS, and
the levels of ATTN_N and of the carriage drive outputs. -/

namespace Sys2Proof.Machine

/-! ## Conditions (spec/08 R163, R164) -/

def condPaperOut (s : State) : Bool := s.paper.state == .out

def condCoverOpen (s : State) : Bool := s.pins.coverOpen

/-- HEAD_HOT: Hmax is 4096 or more (spec/04 R89). -/
def condHeadHot (s : State) : Bool := decide (Config.heatHot ≤ hmax s)

def condFaultActive (s : State) : Bool := s.runner.fault.isSome

/-- QUEUE_ROOM: 7 entries or fewer, and 52 or more free blocks (spec/08 R164). -/
def condQueueRoom (s : State) : Bool :=
  decide (s.queue.length < Config.queueCapacity) && decide (Config.roomBlocks ≤ s.pool.freeCount)

/-- IDLE: the queue is empty and neither carriage nor paper moves (spec/08 R164). -/
def condIdle (s : State) : Bool := s.queue.isEmpty && carriageAtRest s && !paperInFlight s

def condPaused (s : State) : Bool := s.runner.pause

/-- The condition set: bit n is the condition at mask bit 16 + n of R195 (spec/09 R198). -/
def conditionByte (s : State) : Byte :=
  flagsByte [condPaperOut s, condCoverOpen s, condHeadHot s, condFaultActive s, condQueueRoom s, condIdle s,
    condPaused s]

/-! ## ATTN_N and the carriage drive outputs -/

/-- The events and the conditions in the places of the mask word (spec/09 R195). -/
def attentionWord (s : State) : Word :=
  s.events.latched.setWidth 32 ||| ((conditionByte s).setWidth 32 <<< 16)

/-- ATTN calls for service: an unmasked event is latched or an unmasked condition holds (spec/08 R166). -/
def attnCalls (s : State) : Bool := (attentionWord s &&& ~~~s.events.mask) != 0#32

/-- The level of ATTN_N: high while RESET_N is low (spec/09 R191), else low exactly when ATTN calls for service. -/
def attnN (s : State) : Bool := s.pins.resetLow || !attnCalls s

/-- CAR_EN: the drive moves or brakes the carriage (spec/03 R45). -/
def carEn (s : State) : Bool := s.carriage.drive == .on

/-- CAR_DIR while the drive moves the carriage: the clearing move goes right and the seek left (R50, R51), the park move
and an approach towards their targets (R52, R55), a run-up and a sweep in the plan's direction (R57). -/
def carDir (s : State) : Option Dir :=
  match s.carriage.state with
  | .homing =>
    match s.carriage.homing.map Homing.stage with
    | some .clearing => some .fwd
    | some .seek => some .rev
    | some .park => s.carriage.pos.map (fun p => if p ≤ Config.parkPosition then .fwd else .rev)
    | _ => none
  | .approach =>
    match s.carriage.pos, s.carriage.target with
    | some p, some t => some (if p ≤ t then .fwd else .rev)
    | _, _ => none
  | .runup => s.carriage.plan.map Plan.dir
  | .sweep => s.carriage.plan.map Plan.dir
  | _ => none

/-! ## Status items (spec/07 R138, spec/08 R172) -/

/-- COOLING: the cool-down wait, or a thermal suspend with Hmax at 3072 or more. -/
def waitsCooling (s : State) : Bool :=
  s.runner.phase == .coolWait
    || (s.runner.suspend == some .thermal && s.queue.head?.any (fun e => e.state == .suspended)
        && decide (Config.heatResume ≤ hmax s))

/-- PAPER: the head print entry has come to the end of PREP, has no masks, and PE is 0 (spec/07 R141). -/
def waitsPaper (s : State) : Bool :=
  s.runner.phase == .prep && s.runner.point == .mask && s.paper.pe == some 0
    && s.queue.head?.any (fun e => e.pass.any (fun p => p.suppressed.isNone))

/-- The hold reasons PAUSE, FAULT, COVER, COOLING, PAPER (spec/09 R198). -/
def holdReasons (s : State) : Byte :=
  flagsByte [s.runner.pause, s.runner.fault.isSome, s.pins.coverOpen, waitsCooling s, waitsPaper s]

/-- The sweep grade shown in RUNUP, SWEEP, and BRAKING at the end of a sweep or suspend (spec/08 R172). DESIGN CHOICE (log
entry 24): a braking that an ABORT or a HEAD_DRIVE fault has met since is no longer that of a sweep's end or a suspend, and
shows none; R172 does not name the case. -/
def shownGrade (s : State) : Option Nat :=
  match s.carriage.state with
  | .runup => s.carriage.plan.map Plan.grade
  | .sweep => s.carriage.plan.map Plan.grade
  | .braking =>
    match s.carriage.brake with
    | some (.sweepEnd g) => some g
    | some (.suspend _ g) => some g
    | _ => none
  | _ => none

/-- The 28 bytes of GET_STATUS after the result (spec/09 R198). -/
def statusBytes (s : State) : List Byte :=
  [ flagsByte [s.runner.pause, s.runner.fault.isSome, (s.runner.fault.bind FaultRecord.tag).isSome,
      (s.runner.fault.bind FaultRecord.pos).isSome, s.carriage.pos.isSome, s.paper.pe.isSome, !s.queue.isEmpty,
      (shownGrade s).isSome],
    holdReasons s,
    (s.runner.fault.map (fun f => faultCodeByte f.code)).getD 0#8,
    (s.runner.fault.bind FaultRecord.tag).getD 0#8 ]
  ++ bytesLE 2 ((s.runner.fault.bind FaultRecord.pos).getD 0)
  ++ bytesLE 1 s.queue.length ++ bytesLE 1 s.pool.freeCount
  ++ [(headTag s).getD 0#8, (s.queue.head?.map (fun e => entryStateCode e.state)).getD 0#8,
      carStateCode s.carriage.state]
  ++ bytesLE 2 (s.carriage.pos.getD 0) ++ bytesLE 1 ((shownGrade s).getD 0)
  ++ [paperStateCode s.paper.state] ++ bytesLE 2 s.paper.y ++ bytesLE 2 (s.paper.pe.getD 0) ++ bytesLE 2 (hmax s)
  ++ bytesLE 1 s.forms.active ++ [conditionByte s] ++ bytesLE 1 s.events.records.length
  ++ bytesLE 4 s.time.ms.toNat

end Sys2Proof.Machine
end

