-- ==== Sys2Proof/Machine/Geometry.lean ====
section
/-! DEFINITION. Print Geometry (spec/01): dot targets, firing positions, firing lists, the caps, the direction, the extent,
and the plan of a sweep; the rows of a pass on the form and the suppressed-row set. -/

namespace Sys2Proof.Machine

/-! ## Columns and firing positions -/

/-- The column pitch g in counts (R1). -/
def Density.pitch : Density → Nat
  | .d60 => 24
  | .d120 => 12
  | .d240 => 6

/-- The column limit N_d (R1). -/
def Density.limit : Density → Nat
  | .d60 => 816
  | .d120 => 1632
  | .d240 => 3264

/-- The dot target X(c) = O + c·g (R1). -/
def dotTarget (m : Mech) (d : Density) (c : Nat) : Int := m.origin + c * d.pitch

/-- The lead L[G]. -/
def leadOf (m : Mech) (g : Nat) : Nat := m.leads.getD g 0

/-- The firing position of a channel for absolute column c (R2). -/
def firingPos (m : Mech) (d : Density) (ch : Chan) (dir : Dir) (g c : Nat) : Int :=
  let target := match ch with
    | .a => dotTarget m d c
    | .b => dotTarget m d c - Config.stagger
  match dir with
  | .fwd => target - leadOf m g
  | .rev => target + leadOf m g

/-- The run-up and braking distance R_G (R8). -/
def runUpOf : Nat → Nat
  | 0 => 120
  | 1 => 240
  | 2 => 480
  | _ => 720

/-! ## Outstanding dots -/

/-- The image rows of a channel: A has the even rows and B the odd rows (R2, spec/04 R73). -/
def Chan.rows : Chan → Rows
  | .a => 0x555555#24
  | .b => 0xAAAAAA#24

/-- The outstanding rows of pass column c′ (R6); none before the masks are computed. -/
def outstanding (pool : Pool) (p : Pass) (c : Nat) : Rows :=
  match p.suppressed with
  | none => 0#24
  | some sup =>
    let col := passColumn pool p c
    col.dots &&& ~~~sup &&& ~~~col.fired &&& ~~~col.lost

/-- The outstanding rows of a channel in absolute column c; a column outside the pass has none (R6). -/
def chanOutstanding (pool : Pool) (p : Pass) (ch : Chan) (c : Nat) : Rows :=
  if p.start ≤ c ∧ c < p.start + p.span then outstanding pool p (c - p.start) &&& ch.rows else 0#24

/-- The outstanding columns of a channel, absolute, ascending (R6). -/
def outstandingColumns (pool : Pool) (p : Pass) (ch : Chan) : List Nat :=
  ((List.range p.span).map (fun k => p.start + k)).filter (fun c => chanOutstanding pool p ch c != 0#24)

/-- The entry has an outstanding dot. -/
def anyOutstanding (pool : Pool) (p : Pass) : Bool :=
  (List.range p.span).any (fun c => outstanding pool p c != 0#24)

/-- The resume column of a channel. -/
def Pass.resume (p : Pass) : Chan → Option Resume
  | .a => p.resumeA
  | .b => p.resumeB

/-- Column c lies at or beyond the resume column in sweep order (R7). -/
def atOrBeyond (r : Option Resume) (dir : Dir) (c : Nat) : Bool :=
  match r with
  | none => true
  | some .done => false
  | some (.column k) =>
    match dir with
    | .fwd => decide (k ≤ c)
    | .rev => decide (c ≤ k)

/-- The columns a sweep's firing list holds for a channel, ascending (R7). -/
def sweepColumns (pool : Pool) (p : Pass) (ch : Chan) (dir : Dir) : List Nat :=
  (outstandingColumns pool p ch).filter (atOrBeyond (p.resume ch) dir)

/-- The firing list of a channel, in sweep order (R7). -/
def firingList (m : Mech) (pool : Pool) (p : Pass) (ch : Chan) (dir : Dir) (g : Nat) : List Elem :=
  let up := (sweepColumns pool p ch dir).map (fun c => { column := c, pos := firingPos m p.density ch dir g c : Elem })
  match dir with
  | .fwd => up
  | .rev => up.reverse

/-- The sweep the entry would run in this direction has something to fire (R15 stage 1). -/
def hasWork (pool : Pool) (p : Pass) : Bool :=
  let dir := p.dir.getD .fwd
  !(sweepColumns pool p .a dir).isEmpty || !(sweepColumns pool p .b dir).isEmpty

/-! ## Extent (R8) -/

/-- The one of two positions that comes first in sweep order. -/
def firstOf (dir : Dir) (x y : Int) : Int :=
  match dir with
  | .fwd => min x y
  | .rev => max x y

/-- The one of two positions that comes last in sweep order. -/
def lastOf (dir : Dir) (x y : Int) : Int :=
  match dir with
  | .fwd => max x y
  | .rev => min x y

/-- Combine two positions, either of which may be missing. -/
def joinPos (f : Int → Int → Int) : Option Int → Option Int → Option Int
  | none, y => y
  | x, none => x
  | some x, some y => some (f x y)

/-- The first firing position over both lists. -/
def firstFiring (dir : Dir) (a b : List Elem) : Option Int :=
  joinPos (firstOf dir) (a.head?.map Elem.pos) (b.head?.map Elem.pos)

/-- The last firing position over both lists. -/
def lastFiring (dir : Dir) (a b : List Elem) : Option Int :=
  joinPos (lastOf dir) (a.getLast?.map Elem.pos) (b.getLast?.map Elem.pos)

/-- The start position of a sweep: R_G before the first firing. -/
def startPos (dir : Dir) (g : Nat) (first : Int) : Int :=
  match dir with
  | .fwd => first - runUpOf g
  | .rev => first + runUpOf g

/-- The end position of a sweep: R_G after the last firing. -/
def endPos (dir : Dir) (g : Nat) (last : Int) : Int :=
  match dir with
  | .fwd => last + runUpOf g
  | .rev => last - runUpOf g

/-- A position lies within the travel 0..21599. -/
def inTravel (x : Int) : Bool := decide (0 ≤ x) && decide (x ≤ Config.travelEnd)

/-! ## Caps (R9 to R11) -/

/-- The phase cap min(3, ⌊25·g / (36·F)⌋ − 1) (R9). -/
def phaseCap (d : Density) (f : Nat) : Nat := min 3 (25 * d.pitch / (36 * f) - 1)

/-- Some row of a channel holds outstanding dots in two adjacent columns of the list (R10). -/
def adjacentPair (pool : Pool) (p : Pass) (ch : Chan) (dir : Dir) : Bool :=
  let cols := sweepColumns pool p ch dir
  cols.any (fun c =>
    cols.contains (c + 1) && (chanOutstanding pool p ch c &&& chanOutstanding pool p ch (c + 1)) != 0#24)

/-- The adjacency cap (R10). -/
def adjacencyCap (pool : Pool) (p : Pass) (dir : Dir) : Nat :=
  if p.density = .d240 ∧ (adjacentPair pool p .a dir ∨ adjacentPair pool p .b dir) then 1 else 3

/-- The heat cap for a reading of Hmax (spec/04 R90). -/
def heatCap (h : Nat) : Option Nat :=
  if h < 2048 then some 3
  else if h < 3072 then some 2
  else if h < 4096 then some 1
  else if h < Config.heatNoPlan then some 0
  else none

/-- The cap grade (R11); none when Hmax allows no plan. -/
def capGrade (m : Mech) (prof : Profile) (pool : Pool) (p : Pass) (dir : Dir) (h : Nat) : Option Nat :=
  (heatCap h).map (fun hc => min (min (phaseCap p.density m.phaseCount) (adjacencyCap pool p dir)) (min prof.cap hc))

/-! ## Direction (R12) and fit (R14) -/

/-- The two firing lists of a sweep. -/
def listsAt (m : Mech) (pool : Pool) (p : Pass) (dir : Dir) (g : Nat) : List Elem × List Elem :=
  (firingList m pool p .a dir g, firingList m pool p .b dir g)

/-- The start position of a sweep in a direction at a grade, when it has a firing. -/
def sweepStart (m : Mech) (pool : Pool) (p : Pass) (dir : Dir) (g : Nat) : Option Int :=
  (firstFiring dir (listsAt m pool p dir g).1 (listsAt m pool p dir g).2).map (startPos dir g)

/-- The end position of a sweep in a direction at a grade, when it has a firing. -/
def sweepStop (m : Mech) (pool : Pool) (p : Pass) (dir : Dir) (g : Nat) : Option Int :=
  (lastFiring dir (listsAt m pool p dir g).1 (listsAt m pool p dir g).2).map (endPos dir g)

/-- The direction of the first sweep (R12), from the profile, the preference and the position. -/
def chooseDir (m : Mech) (prof : Profile) (pool : Pool) (p : Pass) (g pos : Nat) : Dir :=
  if !prof.bidir then .fwd
  else match p.pref with
  | .fwd => .fwd
  | .rev => .rev
  | .any =>
    match sweepStart m pool p .fwd g, sweepStart m pool p .rev g with
    | some sf, some sr => if ((pos : Int) - sr).natAbs < ((pos : Int) - sf).natAbs then .rev else .fwd
    | _, _ => .fwd

/-- The extent at a grade lies within the travel (R8). -/
def extentFits (m : Mech) (pool : Pool) (p : Pass) (dir : Dir) (g : Nat) : Bool :=
  (sweepStart m pool p dir g).all inTravel && (sweepStop m pool p dir g).all inTravel

/-- The planned grade: the cap grade, lowered until the extent fits (R14). -/
def fitGrade (m : Mech) (pool : Pool) (p : Pass) (dir : Dir) : Nat → Nat
  | 0 => 0
  | g + 1 => if extentFits m pool p dir (g + 1) then g + 1 else fitGrade m pool p dir g

/-! ## Planning (R15, R16) -/

/-- What planning answers: nothing to fire, a head too hot, or a plan. -/
inductive Planned where
  | noColumn
  | tooHot
  | made (plan : Plan)
deriving DecidableEq, Repr

/-- The plan of a sweep in a fixed direction at a planned grade (R16). -/
def planAt (m : Mech) (pool : Pool) (tag : Byte) (p : Pass) (dir : Dir) (g : Nat) : Plan where
  tag := tag
  dir := dir
  grade := g
  lead := leadOf m g
  runUp := runUpOf g
  start := (sweepStart m pool p dir g).getD 0
  stop := (sweepStop m pool p dir g).getD 0
  listA := firingList m pool p .a dir g
  listB := firingList m pool p .b dir g

/-- Plan a sweep of a masked print entry (R15), with Hmax and P as read at this moment. The adjacency cap is formed on
the columns the sweep will hold, which the direction does not change for a first sweep. -/
def planSweep (s : State) (tag : Byte) (p : Pass) (pos : Nat) : Planned :=
  if !hasWork s.pool p then .noColumn
  else
    match capGrade s.mech (activeProfile s) s.pool p (p.dir.getD .fwd) (hmax s) with
    | none => .tooHot
    | some cap =>
      let dir := p.dir.getD (chooseDir s.mech (activeProfile s) s.pool p cap pos)
      .made (planAt s.mech s.pool tag p dir (fitGrade s.mech s.pool p dir cap))

/-! ## Rows on the form (R17 to R19) -/

/-- The form row pin row r strikes at offset y (R17). -/
def formRow (prof : Profile) (y r : Nat) : Nat := (y + 2 * r) % prof.length

/-- A band covers a form row (R17). -/
def Band.covers (b : Band) (f : Nat) : Bool := decide (b.top ≤ f) && decide (f < b.top + b.height)

/-- The tail of the paper has passed the level of row r (R18). -/
def pastTail (pe : Option Nat) (r : Nat) : Bool :=
  match pe with
  | none => false
  | some n => decide (n ≤ 2 * r)

/-- The suppressed-row set at offset y and countdown pe (R18). -/
def suppressedRows (prof : Profile) (y : Nat) (pe : Option Nat) : Rows :=
  rowsWhere (fun r => prof.bands.any (fun b => b.covers (formRow prof y r)) || pastTail pe r)

/-- How many dots of the entry lie in a set of rows (R18). -/
def dotsIn (pool : Pool) (p : Pass) (rows : Rows) : Nat :=
  ((List.range p.span).map (fun c => rowCount ((passColumn pool p c).dots &&& rows))).sum

/-- How many dots the entry holds. -/
def dotsHeld (pool : Pool) (p : Pass) : Nat :=
  ((List.range p.span).map (fun c => rowCount (passColumn pool p c).dots)).sum

/-- Mask a print entry: fix its suppressed-row set and count its suppressed dots; an entry that has masks keeps them
(R18, R19). -/
def maskPass (prof : Profile) (pool : Pool) (y : Nat) (pe : Option Nat) (p : Pass) : Pass :=
  match p.suppressed with
  | some _ => p
  | none =>
    { p with
      suppressed := some (suppressedRows prof y pe)
      dotsSuppressed := dotsIn pool p (suppressedRows prof y pe) }

/-- The skip check (spec/05 R101) at offset y: skip is enabled, and y lies above the top margin or pin row 23 within the
bottom skip. -/
def skipNeeded (prof : Profile) (y : Nat) : Bool :=
  prof.skipOn && (decide (y < prof.top) || decide ((prof.length : Int) - prof.skip ≤ y + 46))

/-- The distance (T − y) mod L of a skip (spec/05 R101). -/
def skipDistance (prof : Profile) (y : Nat) : Int := ((prof.top : Int) - y) % prof.length

/-- The distance of a form feed: (T − y) mod L, and L when that is 0 (spec/05 R100). -/
def formFeedDistance (prof : Profile) (y : Nat) : Int :=
  if skipDistance prof y = 0 then prof.length else skipDistance prof y

/-- The predicted offset after a further n feed units (R19). -/
def predictedY (prof : Profile) (y : Nat) (n : Int) : Nat := (((y : Int) + n) % prof.length).toNat

/-- The predicted countdown after a further n feed units (R19). -/
def predictedPe (pe : Option Nat) (n : Int) : Option Nat :=
  pe.map (fun k => (max 0 (min ((Config.paperEndSpan : Nat) : Int) ((k : Int) - n))).toNat)

end Sys2Proof.Machine
end

