-- ==== Sys2Proof/Machine/Paper.lean ====
section
/-! DEFINITION. The Paper Drive (spec/05): orders, feed units, the paper-end stop, ramp-downs, the tear park, the
paper-end sensor; and the runner's answers to the end of a paper motion. -/

namespace Sys2Proof.Machine

/-- What a command answers. -/
abbrev Result := Host.Outcome State Fault Refusal

/-! ## The runner at the end of a paper order -/

/-- The phase after any retract: PREP for a print entry, ADVANCE for an advance entry (spec/07 R139). -/
def firstPhase (s : State) : State :=
  if s.queue.head?.any (fun e => e.pass.isSome) then
    s.setRunner { s.runner with phase := .prep, point := .skipCheck }
  else s.setRunner { s.runner with phase := .advance }

/-- The skip check at the Y now held: while it calls for a skip PREP goes on; else PREP ends, and an entry that holds a
plan from its look-ahead goes to POSITION while another is to be masked (spec/07 R140, R151). -/
def prepCheck (s : State) : State :=
  if skipNeeded (activeProfile s) s.paper.y then s.setRunner { s.runner with point := .skipCheck }
  else if s.runner.headPlan.isSome then s.setRunner { s.runner with phase := .position }
  else s.setRunner { s.runner with point := .mask }

/-- The distance of an entry advance not moved: none left retires the entry, else it is written as the entry's remaining
advance (spec/05 R105, R108, spec/07 R147). -/
def writeRemaining (left : Int) (s : State) : State :=
  if left = 0 then retire (mapHead (fun e => { e with remaining := none }) s)
  else mapHead (fun e => { e with remaining := some left }) s

/-- The completion of an order as the runner takes it (spec/05 R99, spec/07 R139, R140, R149). -/
def reportDone (p : Purpose) (s : State) : State :=
  match p with
  | .entryAdvance _ => writeRemaining 0 s
  | .skip => prepCheck s
  | .retract => firstPhase s
  | .tear => s

/-! ## Orders and stops -/

/-- Set the pause flag (spec/05 R104, spec/07 R152). -/
def setPause (b : Bool) (s : State) : State := s.setRunner { s.runner with pause := b }

/-- Park the form: TEAR_PARKED with a park distance (spec/05 R112). -/
def parkAt (d : Nat) (s : State) : State :=
  s.setPaper { s.paper with state := .tearParked, park := some d, motion := none }

/-- End the motion with the paper in a state and no park. -/
def restPaper (st : PaperState) (s : State) : State :=
  s.setPaper { s.paper with state := st, park := none, motion := none }

/-- The signed distance a motion has not moved. -/
def Motion.left (m : Motion) : Int := if 0 < m.distance then m.distance - m.moved else m.distance + m.moved

/-- The motion is being stopped by an ABORT, which has removed its entry (spec/05 R107). -/
def Motion.aborted (m : Motion) : Bool := m.stop.any (fun t => t.cause == .abort)

/-- The paper-end stop of a forward motion, in one act (spec/05 R104, R105, R114). -/
def paperEndStop (m : Motion) (s : State) : State :=
  let s1 := setPause true (latch .paperOutStop s)
  match m.purpose with
  | .tear => latch .tearParked (parkAt m.moved s1)
  | .entryAdvance _ => if m.aborted then restPaper .out s1 else writeRemaining m.left (restPaper .out s1)
  | .skip => restPaper .out s1
  | .retract => restPaper .out s1

/-- Take a paper order (spec/05 R95): a distance of 0 is complete as it is taken; a forward order at PE 0 is stopped as it
is taken; any other sets the paper moving. A park ends, its distance being dropped or carried by the retract. -/
def takeOrder (p : Purpose) (d : Int) (s : State) : State :=
  if d = 0 then reportDone p (if p = .retract then restPaper .idle s else s)
  else
    let m : Motion :=
      { purpose := p, distance := d, moved := 0, path := (activeProfile s).path, stop := none }
    if 0 < d ∧ s.paper.pe = some 0 then paperEndStop m s
    else
      s.setPaper { s.paper with
        state := if 0 < d then .advancing else .retracting
        park := none
        motion := some m }

/-- The runner retracts the park of a head entry in RETRACT, or the rest of it, when the paper is parked and nothing holds
the runner (spec/07 R139, spec/05 R116). -/
def giveRetract (s : State) : State :=
  if s.runner.phase = .retract ∧ s.paper.state = .tearParked ∧ runnerFree s = true then
    takeOrder .retract (-((s.paper.park.getD 0 : Nat) : Int)) s
  else s

/-- Bring the paper motion in flight to a stop under a ramp-down of at most min(40, remaining) units (spec/05 R107,
R108). A second ABORT in a ramp-down changes nothing (R107). DESIGN CHOICE (log entry 26): an ABORT or a second fault that
meets the ramp-down of a fault keeps as its bound the units that ramp-down has left, with no fresh min(40, remaining), and so
does a fault that meets the ramp-down of an ABORT; the spec speaks of a second ABORT alone. The motion is ABORT's from the
first ABORT on, since that removes its entry (R107, spec/07 R154). -/
def stopPaper (cause : StopCause) (s : State) : State :=
  match s.paper.motion with
  | none => s
  | some m =>
    let stop : PaperStop :=
      match m.stop with
      | none => { cause := cause, ramp := min Config.rampUnits (m.distance.natAbs - m.moved) }
      | some t => { t with cause := if cause = .abort then .abort else t.cause }
    s.setPaper { s.paper with motion := some { m with stop := some stop } }

/-! ## Feed units -/

/-- The tractor remainder after a feed unit in the tractor path, and the tractor steps issued with it (spec/05 R97). -/
def tractorUnit (forward : Bool) (a : Nat) : Nat × Int :=
  if forward then (if 3 ≤ a + 2 then (a + 2 - 3, 1) else (a + 2, 0))
  else (if a < 2 then (a + 3 - 2, -1) else (a - 2, 0))

/-- The form offset after a feed unit (spec/05 R98). -/
def offsetUnit (forward : Bool) (len y : Nat) : Nat :=
  if forward then (y + 1) % len else (y + len - 1) % len

/-- The countdown after a feed unit (spec/05 R103). -/
def countdownUnit (forward : Bool) (pe : Option Nat) : Option Nat :=
  pe.map (fun n => if forward then n - 1 else min Config.paperEndSpan (n + 1))

/-- One feed unit of a motion in one act: the platen step, the tractor step that R97 calls for, Y, a and PE
(spec/05 R96). -/
def issueUnit (m : Motion) (s : State) : State :=
  let forward := decide (0 < m.distance)
  let t := match m.path with
    | .tractor => tractorUnit forward s.paper.a
    | .friction => (s.paper.a, 0)
  (s.setPaper { s.paper with
      y := offsetUnit forward (activeProfile s).length s.paper.y
      a := t.1
      pe := countdownUnit forward s.paper.pe
      motion := some
        { m with moved := m.moved + 1, stop := m.stop.map (fun x => { x with ramp := x.ramp - 1 }) } }).setOutputs
    { s.outputs with
      platen := s.outputs.platen + (if forward then 1 else -1)
      tractor := s.outputs.tractor + t.2 }

/-- A motion has a feed unit still to move: distance is left, and a ramp-down has not used up its units. -/
def Motion.mayFeed (m : Motion) : Bool :=
  decide (m.moved < m.distance.natAbs) && m.stop.all (fun t => decide (0 < t.ramp))

/-- FEED_UNIT: one unit of the motion in flight, and the paper-end stop when it brings PE to 0 (spec/05 R96, R104). -/
def feedUnit (s : State) : State :=
  match s.paper.motion with
  | none => s
  | some m =>
    if m.mayFeed then
      let s1 := issueUnit m s
      match s1.paper.motion with
      | none => s1
      | some m1 =>
        if 0 < m.distance ∧ s1.paper.pe = some 0 then settleTear (paperEndStop m1 s1) else s1
    else s

def execFeedUnit (s : State) : Result := .next (feedUnit s)

/-! ## The end of a motion -/

/-- A motion that has moved its whole distance ends (spec/05 R99, R112, R116). -/
def completeMotion (m : Motion) (s : State) : State :=
  match m.purpose with
  | .tear => latch .tearParked (parkAt m.moved s)
  | .entryAdvance t => reportDone (.entryAdvance t) (restPaper .idle s)
  | .skip => reportDone .skip (restPaper .idle s)
  | .retract => reportDone .retract (restPaper .idle s)

/-- A stopped motion ends: what it leaves depends on its purpose (spec/05 R107, R108, R115). -/
def endStopped (m : Motion) (s : State) : State :=
  match m.purpose with
  | .tear => latch .tearParked (parkAt m.moved s)
  | .entryAdvance _ => if m.aborted then restPaper .idle s else writeRemaining m.left (restPaper .idle s)
  | .skip => restPaper .idle s
  | .retract =>
    if m.moved < m.distance.natAbs then parkAt (m.distance.natAbs - m.moved) s
    else if m.aborted then restPaper .idle s
    else firstPhase (restPaper .idle s)

/-- PAPER_MOTION_COMPLETE: the steppers come to rest, at the end of the distance or of a stop; a retract that waited for
a tear advance to park follows at once (spec/05 R99, R107, spec/07 R139). -/
def paperMotionComplete (s : State) : State :=
  match s.paper.motion with
  | none => s
  | some m =>
    if m.stop.isSome then settleTear (giveRetract (endStopped m s))
    else if m.moved = m.distance.natAbs then settleTear (giveRetract (completeMotion m s))
    else s

def execPaperMotionComplete (s : State) : Result := .next (paperMotionComplete s)

/-! ## Tear-off and the paper-end sensor -/

/-- The tear distance ((L − Y) mod L) + tear offset (spec/05 R111). -/
def tearDistance (prof : Profile) (y : Nat) : Nat :=
  (((prof.length : Int) - y) % prof.length).toNat + (prof.tear.map Tear.offset).getD 0

/-- TEAR_IDLE_TIMER_EXPIRY: a due tear timer gives a tear advance of d_t, or parks at once when d_t is 0
(spec/05 R111). -/
def tearIdleTimerExpiry (s : State) : State :=
  if s.time.tearIdle = some 0 ∧ tearReady s = true then
    let s1 := stopTear s
    let d := tearDistance (activeProfile s) s.paper.y
    if d = 0 then settleTear (latch .tearParked (parkAt 0 s1)) else settleTear (takeOrder .tear d s1)
  else s

def execTearIdleTimerExpiry (s : State) : Result := .next (tearIdleTimerExpiry s)

/-- PAPER_SNS_NO_PAPER: the sensor changes to no paper; PE is set to 540 and PAPER_END latched (spec/05 R102). While
RESET_N is low only the pin changes (spec/09 R191). -/
def paperGone (s : State) : State :=
  if s.pins.paperSeen then
    let s1 := s.setPins { s.pins with paperSeen := false }
    if s.pins.resetLow then s1
    else latch .paperEnd (s1.setPaper { s1.paper with pe := some Config.paperEndSpan })
  else s

def execPaperSnsNoPaper (s : State) : Result := .next (paperGone s)

/-- PAPER_SNS_PAPER: the sensor changes to paper; PE becomes absent and OUT becomes IDLE (spec/05 R102). -/
def paperBack (s : State) : State :=
  if s.pins.paperSeen then s
  else
    let s1 := s.setPins { s.pins with paperSeen := true }
    if s.pins.resetLow then s1
    else
      settleTear (s1.setPaper { s1.paper with
        pe := none
        state := if s1.paper.state = .out then .idle else s1.paper.state })

def execPaperSnsPaper (s : State) : Result := .next (paperBack s)

end Sys2Proof.Machine
end

