-- ==== Sys2Proof/Machine/Carriage.lean ====
section
/-! DEFINITION. The fault latch (spec/07 R156) and the Carriage Controller (spec/03): orders, stall, suspend and halt,
resume columns, rest, homing. -/

namespace Sys2Proof.Machine

/-! ## Fault latch -/

/-- A fault reaches the latch: the record is set when none is latched, FAULT_RAISED is latched, and paper motion in flight
is ordered to stop (spec/07 R156, spec/05 R108). -/
def raiseFault (code : FaultCode) (tag : Option Byte) (pos : Option Nat) (s : State) : State :=
  let s1 :=
    if s.runner.fault.isSome then s
    else s.setRunner { s.runner with fault := some { code := code, tag := tag, pos := pos } }
  stopPaper .fault (latch .faultRaised s1)

/-! ## Orders (R45, R50, R55, R57) -/

/-- A homing order: the position is given up; a covered sensor is cleared first, an uncovered one is sought at once
(R50). -/
def homingOrder (src : HomingSource) (s : State) : State :=
  startStall (s.setCarriage { s.carriage with
    state := .homing
    pos := none
    drive := .on
    homing := some
      { source := src, stage := if s.pins.homeCovered then .clearing else .seek, travel := 0 } })

/-- An approach order: complete at once at the target, else the carriage is driven there (R55). -/
def approachOrder (target : Nat) (s : State) : State :=
  if s.carriage.pos = some target then s
  else startStall (s.setCarriage { s.carriage with state := .approach, drive := .on, target := some target })

/-- A sweep order: the channels are loaded unarmed and the run-up starts (R57). The runner hands its plan over. -/
def giveSweep (p : Plan) (s : State) : State :=
  startStall ((s.setRunner { s.runner with phase := .sweep, headPlan := none }).setCarriage { s.carriage with
    state := .runup
    drive := .on
    plan := some p
    chanA := { list := p.listA, next := 0, armed := false }
    chanB := { list := p.listB, next := 0, armed := false } })

/-- The homing owed by CLEAR_FAULT is given once the carriage is at rest (spec/07 R157). DESIGN CHOICE (log entry 27): it is
given in the act that brings the carriage to rest, also when an ABORT's ENTRY_ABORTED still waits for that rest (R155), which
then waits for the end of this homing too; the spec leaves open which of the two comes first. -/
def giveOwedHoming (s : State) : State :=
  if s.runner.homingOwed && carriageAtRest s then
    homingOrder .clearFault (s.setRunner { s.runner with homingOwed := false })
  else s

/-! ## Channels and resume columns -/

/-- A channel is exhausted when its next index has passed the end of its list (R58). -/
def Channel.exhausted (c : Channel) : Bool := decide (c.list.length ≤ c.next)

/-- The grade of the plan being carried out. -/
def sweepGrade (s : State) : Nat := (s.carriage.plan.map Plan.grade).getD 0

/-- The resume column of a channel: the first element of its list whose column still holds an outstanding dot of the
channel, else done (R61). -/
def resumeOf (pool : Pool) (p : Pass) (ch : Chan) (list : List Elem) : Resume :=
  match list.find? (fun e => chanOutstanding pool p ch e.column != 0#24) with
  | some e => .column e.column
  | none => .done

/-- Write the resume columns of a stopped sweep once no burst runs (R61). -/
def flushResume (s : State) : State :=
  match s.carriage.resumeDue, s.driver.running with
  | some d, none =>
    (mapHeadPass (fun p => { p with
        resumeA := some (resumeOf s.pool p .a d.listA)
        resumeB := some (resumeOf s.pool p .b d.listB) }) s).setCarriage
      { s.carriage with resumeDue := none }
  | _, _ => s

/-- Drop the pending bursts; their dots stay outstanding (spec/04 R80). -/
def dropPending (s : State) : State := s.setDriver { s.driver with pendA := none, pendB := none }

/-- The lists of the plan being carried out. -/
def planLists (s : State) : Option ResumeDue :=
  s.carriage.plan.map (fun p => { listA := p.listA, listB := p.listB })

/-! ## Sweep end, suspend and halt (R60, R62, R63, R67) -/

/-- Begin to brake for a cause: the channels are disarmed and emptied and the plan is spent. DESIGN CHOICE (log entry 29): at
a sweep's end, a suspend in SWEEP and a HEAD_DRIVE halt the channels are emptied in this act too; R60, R62 and R67 say there
only that they are disarmed, where R46, R63 and R70 empty them, and leave open whether a disarmed channel keeps its list. -/
def brakeFor (cause : BrakeCause) (s : State) : State :=
  s.setCarriage { s.carriage with
    state := .braking
    brake := some cause
    plan := none
    chanA := Channel.empty
    chanB := Channel.empty }

/-- Stop a sweep before its end: pending bursts are dropped, the carriage brakes, and the resume columns are written once
the running burst has ended (R61, R62, R67). -/
def stopSweep (cause : BrakeCause) (s : State) : State :=
  let s1 := brakeFor cause (dropPending s)
  flushResume (s1.setCarriage { s1.carriage with resumeDue := planLists s })

/-- A suspend trigger (R62, R63): it stops a sweep with work left, cuts a run-up short, and has no effect elsewhere. -/
def suspendTrigger (reason : SuspendReason) (s : State) : State :=
  match s.carriage.state with
  | .sweep =>
    if s.carriage.chanA.exhausted && s.carriage.chanB.exhausted && s.driver.pendA.isNone && s.driver.pendB.isNone then s
    else stopSweep (.suspend reason (sweepGrade s)) s
  | .runup => brakeFor (.suspend reason (sweepGrade s)) s
  | _ => s

/-- The end of a sweep: both resume columns are done and the carriage brakes (R60). -/
def endSweep (s : State) : State :=
  brakeFor (.sweepEnd (sweepGrade s))
    (mapHeadPass (fun p => { p with resumeA := some .done, resumeB := some .done }) s)

/-- A sweep ends when both channels are exhausted and the driver neither runs nor holds a burst (R60). -/
def checkSweepEnd (s : State) : State :=
  if s.carriage.state = .sweep ∧ s.carriage.chanA.exhausted = true ∧ s.carriage.chanB.exhausted = true
      ∧ driverIdle s = true then endSweep s
  else s

/-! ## Stall (R46, R48, R66) -/

/-- The tag handed with a stall: none for a homing the host asked for and for the braking of an ABORT, the look-ahead
entry's for its approach, else the head's (R46, R52, R56, R66, R70). -/
def stallTag (s : State) : Option Byte :=
  match s.carriage.state with
  | .homing => if s.carriage.homing.any (fun h => h.source == .host) then none else headTag s
  | .approach =>
    match s.runner.lookAhead with
    | some p => some p.tag
    | none => headTag s
  | .braking => if s.carriage.brake = some .abort then none else headTag s
  | _ => headTag s

/-- A stall here halts the head entry: in the run-up, the sweep, or a braking that no ABORT began (R66, R67). -/
def stallHalts (s : State) : Bool :=
  match s.carriage.state with
  | .runup => true
  | .sweep => true
  | .braking => s.carriage.brake != some .abort
  | _ => false

/-- The drive goes off and the position is lost: UNHOMED, channels emptied, plan spent, pending bursts dropped; the resume
columns of a sweep are written once no burst runs (R46, R66). -/
def carriageLost (s : State) : State :=
  let due := if s.carriage.state = .sweep then planLists s else s.carriage.resumeDue
  flushResume (stopStall ((dropPending s).setCarriage { Carriage.reset with resumeDue := due }))

/-- Drop the plan an approach was carrying out: the look-ahead plan when there is one, else the head entry's (R56). -/
def dropApproached (s : State) : State :=
  if s.runner.lookAhead.isSome then s.setRunner { s.runner with lookAhead := none }
  else s.setRunner { s.runner with headPlan := none }

/-- The carriage has stalled, or crossed a limit under drive, or homing has failed (R46): HOME_FAIL in HOMING and STALL
elsewhere, handed with a position where one is known. -/
def stall (pos : Option Nat) (s : State) : State :=
  let code := if s.carriage.state = .homing then FaultCode.homeFail else FaultCode.stall
  let s1 := if s.carriage.state = .approach then dropApproached s else s
  let s2 := carriageLost s1
  let s3 := if stallHalts s then setHeadState .halted s2 else s2
  giveOwedHoming (raiseFault code (stallTag s) pos s3)

/-- STALL_TIMER_EXPIRY: a due stall timer while the drive is on is a stall; P is handed as it stands, which is no position
in HOMING (R46). -/
def stallTimerExpiry (s : State) : State :=
  if s.carriage.drive = .on ∧ s.time.stall = some 0 then
    settleTear (stall (if s.carriage.state = .homing then none else s.carriage.pos) s)
  else s

def execStallTimerExpiry (s : State) : Result := .next (stallTimerExpiry s)

/-! ## Rest (R47, R52, R55, R60, R64) -/

/-- The motion in hand ends in a ramp: a BRAKING, an approach, or one of homing's three stops (R47, R50 to R52). -/
def ramping (s : State) : Bool :=
  match s.carriage.state with
  | .braking => true
  | .approach => true
  | .homing =>
    s.carriage.homing.any (fun h => h.stage == .clearStop || h.stage == .seekStop || h.stage == .park)
  | _ => false

/-- BRAKE_RAMP_END: at the end of the ramp the drive is released, and the stall timer is read as the rest timer (R47). -/
def brakeRampEnd (s : State) : State :=
  if s.carriage.drive = .on ∧ ramping s = true then s.setCarriage { s.carriage with drive := .released } else s

def execBrakeRampEnd (s : State) : Result := .next (brakeRampEnd s)

/-- Rest at the end of a BRAKING: IDLE with a valid position, else UNHOMED; a complete sweep goes on to ADVANCE, a suspend
leaves the head entry SUSPENDED and latches SWEEP_SUSPENDED (R47, R60, R64, spec/07 R145). DESIGN CHOICE (log entry 27): a
homing owed begins in this act, before the ENTRY_ABORTED of an ABORT whose braking this was (R155, R157). -/
def finishBraking (s : State) : State :=
  let s1 := stopStall (s.setCarriage { s.carriage with
    state := if s.carriage.pos.isSome then .idle else .unhomed
    drive := .off
    brake := none })
  giveOwedHoming (match s.carriage.brake with
    | some (.sweepEnd _) => s1.setRunner { s1.runner with phase := .advance }
    | some (.suspend r _) =>
      latch .sweepSuspended (setHeadState .suspended (s1.setRunner { s1.runner with suspend := some r }))
    | some .halt => s1
    | some .abort => s1
    | none => s1)

/-- Start a driven stage of homing. -/
def homingStage (h : Homing) (stage : HomingStage) (s : State) : State :=
  startStall (s.setCarriage { s.carriage with
    drive := .on
    homing := some { h with stage := stage, travel := 0 } })

/-- Rest within HOMING: after the clearing move the seek begins, after the seek the park move; rest at 360 completes the
homing and latches HOMED, and rest elsewhere repeats the park move (R50 to R52). -/
def homingRest (h : Homing) (s : State) : State :=
  match h.stage with
  | .clearStop => homingStage h .seek s
  | .seekStop => homingStage h .park s
  | .park =>
    if s.carriage.pos = some Config.parkPosition then
      latch .homed (stopStall (s.setCarriage { s.carriage with state := .idle, drive := .off, homing := none }))
    else homingStage h .park s
  | .clearing => s
  | .seek => s

/-- REST_DETECTED: a due rest timer after the drive was released (R47). An approach is complete at its target and is
repeated elsewhere (R55). -/
def restDetected (s : State) : State :=
  if s.carriage.drive = .released ∧ s.time.stall = some 0 then
    match s.carriage.state with
    | .homing =>
      match s.carriage.homing with
      | some h => settleTear (homingRest h s)
      | none => s
    | .approach =>
      if s.carriage.pos = s.carriage.target then
        settleTear
          (stopStall (s.setCarriage { s.carriage with state := .idle, drive := .off, target := none }))
      else startStall (s.setCarriage { s.carriage with drive := .on })
    | .braking => settleTear (finishBraking s)
    | _ => s
  else s

def execRestDetected (s : State) : Result := .next (restDetected s)

/-! ## Home sensor (R50, R51) -/

/-- HOME_SENSOR_CHANGE: in the clearing move the uncovering ends it; in the seek the first covering edge sets P to 120 and
makes the position valid; elsewhere only the pin changes. -/
def homeSensorChange (covered : Bool) (s : State) : State :=
  if s.pins.homeCovered = covered then s
  else
    let s1 := s.setPins { s.pins with homeCovered := covered }
    match s.carriage.state, s.carriage.homing with
    | .homing, some h =>
      match h.stage, covered with
      | .clearing, false => s1.setCarriage { s.carriage with homing := some { h with stage := .clearStop } }
      | .seek, true =>
        s1.setCarriage { s.carriage with
          pos := some Config.homePosition
          homing := some { h with stage := .seekStop } }
      | _, _ => s1
    | _, _ => s1

def execHomeSensorChange (covered : Bool) (s : State) : Result := .next (homeSensorChange covered s)

/-! ## Travel limit (R48) -/

/-- An edge would take P past a limit: P is lost. Under drive, and in HOMING always, it is a stall at the limit; in the
rest wait of BRAKING it is the rest with no position; in that of APPROACH the plan is dropped; in IDLE the carriage is
UNHOMED and no fault is raised. -/
def crossLimit (limit : Nat) (s : State) : State :=
  if s.carriage.state = .homing ∨ s.carriage.drive = .on then stall (some limit) s
  else
    let s1 := s.setCarriage { s.carriage with pos := none }
    match s.carriage.state with
    | .braking => finishBraking s1
    | .approach =>
      giveOwedHoming (dropApproached (stopStall (s1.setCarriage { s1.carriage with
        state := .unhomed, drive := .off, target := none })))
    | _ => s1.setCarriage { s1.carriage with state := .unhomed, drive := .off }

/-! ## ABORT (R70) -/

/-- ABORT's share for the carriage: a motion in flight brakes to rest, channels are emptied, pending bursts dropped, a
running burst goes on without its entry, and no resume column is written (R70). DESIGN CHOICE (log entry 23): an ABORT that
finds the rest wait of an approach or of a homing, where the drive is released already, leaves it released and the rest timer
running; R70 does not say whether the drive is switched on again. DESIGN CHOICE (log entry 24): an ABORT that finds a sweep's
or a suspend's braking makes the braking its own, so that no sweep grade is shown in the rest of it. -/
def abortCarriage (s : State) : State :=
  let s1 := (dropPending s).setDriver { (dropPending s).driver with
    running := s.driver.running.map (fun r => { r with burst := { r.burst with orphan := true } }) }
  if carriageAtRest s then s1.setCarriage { s1.carriage with resumeDue := none }
  else
    (brakeFor .abort s1).setCarriage { (brakeFor .abort s1).carriage with
      pos := if s.carriage.state = .homing then none else s.carriage.pos
      homing := none
      target := none
      resumeDue := none }

end Sys2Proof.Machine
end

