-- ==== Sys2Proof/Machine/Driver.lean ====
section
/-! DEFINITION. The Head Driver and the Heat Model (spec/04): bursts, the arbiter, slots, the drive-fault input, the cover;
and the encoder edge, which moves P and makes the column matches (spec/03 R44, R57 to R59). -/

namespace Sys2Proof.Machine

/-! ## Bursts (R73, R74) -/

/-- The (row, output) pairs of a set of rows, through the pin map. -/
def pairsOf (pinMap : List Nat) (rows : Rows) : List (Nat × Nat) :=
  (rowList rows).map (fun r => (r, pinMap.getD r 0))

/-- The pairs sorted into the firing groups 0..F−1 (R74). -/
def groupPairs (m : Mech) (pairs : List (Nat × Nat)) : List (List (Nat × Nat)) :=
  (List.range m.phaseCount).map (fun k => pairs.filter (fun x => m.groupMap.getD x.2 0 == k))

/-- The outstanding rows of a channel in an absolute column of the head entry. -/
def headRows (s : State) (ch : Chan) (c : Nat) : Rows :=
  match s.queue.head?.bind Entry.pass with
  | none => 0#24
  | some p => chanOutstanding s.pool p ch c

/-- The burst that a match forms (R74). -/
def formBurst (s : State) (ch : Chan) (c : Nat) : Burst where
  chan := ch
  tag := (headTag s).getD 0#8
  column := c
  groups := groupPairs s.mech (pairsOf s.driver.pinMap (headRows s ch c))
  order := s.driver.matchCount
  orphan := (headTag s).isNone

/-- The set of the rows of some pairs. -/
def pairRows (pairs : List (Nat × Nat)) : Rows := pairs.foldl (fun acc x => acc ||| BitVec.twoPow 24 x.1) 0#24

/-- The set of the outputs of some pairs. -/
def pairOutputs (pairs : List (Nat × Nat)) : Rows := pairs.foldl (fun acc x => acc ||| BitVec.twoPow 24 x.2) 0#24

/-- Count the dots of some pairs of a burst's column lost: their lost marks, the entry's counter, DOTS_LOST; nothing when
the entry has gone or when there is no dot (R79, R81, R82). -/
def loseDots (b : Burst) (pairs : List (Nat × Nat)) (s : State) : State :=
  if b.orphan || pairs.isEmpty then s
  else
    latch .dotsLost
      (mapHeadPass (fun p => { p with dotsLost := p.dotsLost + pairs.length })
        (updateHeadColumn b.column (fun c => { c with lost := c.lost ||| pairRows pairs }) s))

/-! ## Arbiter (R77 to R79) -/

/-- A burst may start: SWEEP, a valid position, a closed cover (R78). -/
def mayStart (s : State) : Bool :=
  s.carriage.state == .sweep && s.carriage.pos.isSome && !s.pins.coverOpen

/-- The pending place of a channel. -/
def Driver.pend (d : Driver) : Chan → Option Burst
  | .a => d.pendA
  | .b => d.pendB

/-- Fill or empty the pending place of a channel. -/
def Driver.setPend (d : Driver) (ch : Chan) (b : Option Burst) : Driver :=
  match ch with
  | .a => { d with pendA := b }
  | .b => { d with pendB := b }

/-- A match is taken: the burst it forms starts, or becomes pending, or takes the pending place from an older burst whose
dots are lost (R77, R79). -/
def takeMatch (ch : Chan) (c : Nat) (s : State) : State :=
  let b := formBurst s ch c
  match s.driver.pend ch with
  | none =>
    if s.driver.running.isNone && mayStart s then
      s.setDriver { s.driver with running := some { burst := b, next := 0 } }
    else s.setDriver (s.driver.setPend ch (some b))
  | some old =>
    let s1 := loseDots old old.groups.flatten s
    s1.setDriver (s1.driver.setPend ch (some b))

/-- The pending burst whose turn it is: the earlier match, and channel A when both came from the same edge (R78). -/
def nextPending (d : Driver) : Option Chan :=
  match d.pendA, d.pendB with
  | none, none => none
  | some _, none => some .a
  | none, some _ => some .b
  | some a, some b => if a.order ≤ b.order then some .a else some .b

/-- Start a pending burst when the driver is free and the starting conditions hold (R78). -/
def startPending (s : State) : State :=
  if s.driver.running.isNone && mayStart s then
    match nextPending s.driver with
    | none => s
    | some ch =>
      match s.driver.pend ch with
      | none => s
      | some b => s.setDriver { s.driver.setPend ch none with running := some { burst := b, next := 0 } }
  else s

/-! ## The drive-fault input (R81, R82) -/

/-- The carriage's share of a HEAD_DRIVE fault: a sweep halts; the braking of a suspend goes on as that of a halt (R67,
R68). DESIGN CHOICE (log entry 24): the rest of that braking shows no sweep grade, as that of a halt shows none. -/
def haltSweep (s : State) : State :=
  match s.carriage.state, s.carriage.brake with
  | .sweep, _ => stopSweep .halt s
  | .braking, some (.suspend _ _) => flushResume (s.setCarriage { s.carriage with brake := some .halt })
  | _, _ => flushResume s

/-- A drive fault taken while a burst runs: its unfired groups are abandoned and lost, the driver is free and starts
nothing, the sweep halts, the head entry is HALTED, and HEAD_DRIVE is handed to the latch with P (R81, R67). The burst of
an aborted entry hands no tag and marks nothing (R82). -/
def takeDriveFault (s : State) : State :=
  match s.driver.running with
  | none => s
  | some r =>
    let s1 := loseDots r.burst (r.burst.groups.drop r.next).flatten s
    let s2 := (s1.setDriver { s1.driver with running := none }).setOutputs { s1.outputs with pinOut := 0#24 }
    let s3 := haltSweep s2
    let s4 :=
      if r.burst.orphan then s3
      else (setHeadState .halted s3).setRunner { s3.runner with suspend := none }
    raiseFault .headDrive (if r.burst.orphan then none else some r.burst.tag) s.carriage.pos s4

/-- DFAULT_N found asserted while a burst runs (R81, R82). -/
def checkDriveFault (s : State) : State :=
  if s.pins.driveFault && s.driver.running.isSome then takeDriveFault s else s

/-- DRIVE_FAULT: the level of DFAULT_N changes; an assertion during a burst is taken, one while the driver is free has no
effect (R82). -/
def driveFaultInput (asserted : Bool) (s : State) : State :=
  settleTear (checkDriveFault (s.setPins { s.pins with driveFault := asserted }))

def execDriveFault (asserted : Bool) (s : State) : Result := .next (driveFaultInput asserted s)

/-! ## Slots (R75, R76, R87, R92) -/

/-- Charge the outputs of some pairs, one firing each (R87). -/
def chargePairs (e : Nat) : List (Nat × Nat) → List Nat → List Nat
  | [], h => h
  | x :: t, h => chargePairs e t (chargeHeat h x.2 e)

/-- Mark the dots of a fired group and count them, unless the burst's entry has gone (R76). -/
def fireDots (b : Burst) (pairs : List (Nat × Nat)) (s : State) : State :=
  if b.orphan || pairs.isEmpty then s
  else
    mapHeadPass (fun p => { p with dotsFired := p.dotsFired + pairs.length })
      (updateHeadColumn b.column (fun c => { c with fired := c.fired ||| pairRows pairs }) s)

/-- Some output of the pairs has been left at 6144 or more (R92). -/
def raisesThermal (pairs : List (Nat × Nat)) (h : List Nat) : Bool :=
  pairs.any (fun x => decide (Config.heatSuspend ≤ h.getD x.2 0))

/-- BURST_SLOT: at the start of the running burst's next slot its group's outputs are pulsed for 30 + 10·copies µs, their
dots marked fired, their heat charged by 4 + copies; a heat value left at 6144 or more hands a thermal suspend trigger to
the carriage (R75, R76, R87, R92). -/
def burstSlot (s : State) : State :=
  match s.driver.running with
  | none => s
  | some r =>
    if r.next < r.burst.groups.length then
      let pairs := r.burst.groups.getD r.next []
      let copies := (activeProfile s).copies
      let s1 := fireDots r.burst pairs s
      let s2 := (s1.setDriver { s1.driver with running := some { r with next := r.next + 1 } }).setOutputs
        { s1.outputs with pinOut := pairOutputs pairs, pulse := 30 + 10 * copies }
      let s3 := s2.setHeat (chargePairs (4 + copies) pairs s2.heat)
      if raisesThermal pairs s3.heat then suspendTrigger .thermal s3 else s3
    else s

def execBurstSlot (s : State) : Result := .next (burstSlot s)

/-- BURST_END: after its last slot the burst ends and the driver is free; the resume columns of a stopped sweep are
written; a pending burst starts, or the driver reports itself idle and an exhausted sweep ends (R75, R78, spec/03 R60,
R61). -/
def burstEnd (s : State) : State :=
  match s.driver.running with
  | none => s
  | some r =>
    if r.burst.groups.length ≤ r.next then
      let s1 := (s.setDriver { s.driver with running := none }).setOutputs { s.outputs with pinOut := 0#24 }
      settleTear (checkSweepEnd (checkDriveFault (startPending (flushResume s1))))
    else s

def execBurstEnd (s : State) : Result := .next (burstEnd s)

/-- COOLING_TICK: a cooling tick the divider has given lowers every heat value; a cool-down wait ends when Hmax is below
4096 (R88, R91, spec/07 R142, spec/08 R175). -/
def coolingTick (s : State) : State :=
  if 0 < s.time.coolingOwed then
    let s1 := (s.setTime { s.time with coolingOwed := s.time.coolingOwed - 1 }).setHeat (s.heat.map coolHeat)
    if s1.runner.phase = .coolWait ∧ hmax s1 < Config.heatHot then
      s1.setRunner { s1.runner with phase := .position }
    else s1
  else s

def execCoolingTick (s : State) : Result := .next (coolingTick s)

/-! ## Cover (R83) -/

/-- COVER_OPEN: the opening is handed to the Carriage Controller as a suspend trigger; the open cover holds the runner. -/
def coverOpens (s : State) : State :=
  if s.pins.coverOpen then s
  else suspendTrigger .hold (s.setPins { s.pins with coverOpen := true })

def execCoverOpen (s : State) : Result := .next (coverOpens s)

/-- COVER_CLOSE: the COVER hold ends; nothing starts in the Head Driver (R83, spec/07 R138). -/
def coverCloses (s : State) : State := s.setPins { s.pins with coverOpen := false }

def execCoverClose (s : State) : Result := .next (coverCloses s)

/-! ## Encoder edges (spec/03 R44, R46, R48, R50, R51, R57 to R59) -/

/-- The next element of an armed channel, when its firing position is q (R58). -/
def Channel.hit (c : Channel) (q : Nat) : Option Elem :=
  if c.armed then (c.list[c.next]?).filter (fun e => e.pos == (q : Int)) else none

/-- A channel's index after a compare: past the element that matched (R58). -/
def Channel.step (c : Channel) (hit : Option Elem) : Channel :=
  if hit.isSome then { c with next := c.next + 1 } else c

/-- Hand a match of a channel to the Head Driver. -/
def handMatch (ch : Chan) (hit : Option Elem) (s : State) : State :=
  match hit with
  | none => s
  | some e => takeMatch ch e.column s

/-- Both channels compare q; matches on the same edge are handed together, channel A's first (R58, R77); a burst that starts
under an asserted DFAULT_N is faulted at its start (R81); a sweep with nothing left ends (R60). -/
def compareAt (q : Nat) (s : State) : State :=
  let a := s.carriage.chanA.hit q
  let b := s.carriage.chanB.hit q
  let s1 := s.setCarriage { s.carriage with
    chanA := s.carriage.chanA.step a
    chanB := s.carriage.chanB.step b }
  let s2 := if a.isSome || b.isSome then
      s1.setDriver { s1.driver with matchCount := s1.driver.matchCount + 1 }
    else s1
  checkSweepEnd (checkDriveFault (handMatch .b b (handMatch .a a s2)))

/-- The edge that brings P to the plan's first firing position ends the run-up: SWEEP, both channels armed, sweeps used
raised up to 255, and the same P compared (R57). -/
def endRunUp (q : Nat) (s : State) : State :=
  let s1 := mapHeadPass (fun p => { p with sweeps := min 255 (p.sweeps + 1) }) s
  compareAt q (s1.setCarriage { s1.carriage with
    state := .sweep
    chanA := { s1.carriage.chanA with armed := true }
    chanB := { s1.carriage.chanB with armed := true } })

/-- P after an edge; none when the edge crosses a limit of the travel (R44, R48). -/
def moveCount (dir : Dir) (p : Nat) : Option Nat :=
  match dir with
  | .fwd => if p + 1 ≤ Config.travelEnd then some (p + 1) else none
  | .rev => if 0 < p ∧ p - 1 ≤ Config.travelEnd then some (p - 1) else none

/-- The limit an edge of this direction crosses. -/
def limitOf : Dir → Nat
  | .fwd => Config.travelEnd
  | .rev => 0

/-- What an edge that has brought P to q does beside moving P. -/
def edgeAt (dir : Dir) (q : Nat) (s : State) : State :=
  match s.carriage.state, s.carriage.plan with
  | .runup, some p => if firstFiring p.dir p.listA p.listB = some (q : Int) then endRunUp q s else s
  | .sweep, some p => if dir = p.dir then compareAt q s else s
  | _, _ => s

/-- One count of travel in the sense of a direction. -/
def countOf (dir : Dir) (along : Dir) : Int := if dir = along then 1 else -1

/-- An edge without a valid position is counted by homing's clearing move and seek alone, which fail at their limits (R44,
R50, R51). -/
def edgeUnplaced (dir : Dir) (s : State) : State :=
  match s.carriage.state, s.carriage.homing with
  | .homing, some h =>
    match h.stage with
    | .clearing =>
      let t := h.travel + countOf dir .fwd
      let s1 := s.setCarriage { s.carriage with homing := some { h with travel := t } }
      if Config.clearLimit ≤ t then stall none s1 else s1
    | .seek =>
      let t := h.travel + countOf dir .rev
      let s1 := s.setCarriage { s.carriage with homing := some { h with travel := t } }
      if Config.seekLimit ≤ t then stall none s1 else s1
    | _ => s
  | _, _ => s

/-- The direction of an edge of a quadrature channel that finds the levels `a` of ENC_A and `b` of ENC_B (R44). The channel
that leads is the one whose edges find the levels equal and leave them apart; `aLeads` says whether that is ENC_A in rightward
motion. -/
def quadDir (aLeads : Bool) (q : Quad) (a b : Bool) : Dir :=
  if ((a == b) == (q == .encA)) == aLeads then .fwd else .rev

/-- The direction of the count that an edge of a quadrature channel gives (R44). -/
def edgeDir (q : Quad) (s : State) : Dir := quadDir Config.encALeads q s.pins.encA s.pins.encB

/-- An edge of a quadrature channel turns its level. -/
def turnQuad (q : Quad) (s : State) : State :=
  match q with
  | .encA => s.setPins { s.pins with encA := !s.pins.encA }
  | .encB => s.setPins { s.pins with encB := !s.pins.encB }

/-- A count in a direction: the timer of a drive that is on or released restarts; a valid P moves by one count, or crosses a
limit; the run-up may end and the channels compare. -/
def countEdge (dir : Dir) (s : State) : State :=
  let s0 := if s.carriage.drive = .off then s else startStall s
  settleTear (match s0.carriage.pos with
    | none => edgeUnplaced dir s0
    | some p =>
      match moveCount dir p with
      | none => crossLimit (limitOf dir) s0
      | some q => edgeAt dir q (s0.setCarriage { s0.carriage with pos := some q }))

/-- ENCODER_EDGE: an edge of one of the quadrature channels is one count, in the direction that the order of the channels'
edges gives (R44). -/
def encoderEdge (q : Quad) (s : State) : State := countEdge (edgeDir q s) (turnQuad q s)

def execEncoderEdge (channel : Quad) (s : State) : Result := .next (encoderEdge channel s)

end Sys2Proof.Machine
end

