-- ==== Sys2Proof/Machine/Runner.lean ====
section
/-! DEFINITION. The Queue Runner (spec/07): take-up, the phases of the head entry, resuming, the look-ahead plan, and the
end of an ABORT. Each step acts when the head entry stands at its point and, where it plans or gives an order, nothing
holds the runner (R138); else it changes nothing. -/

namespace Sys2Proof.Machine

/-- The paper is parked, or a tear advance is in flight (R139). -/
def parkAhead (s : State) : Bool :=
  s.paper.state == .tearParked || (paperInFlight s && s.paper.motion.any (fun m => m.purpose == .tear))

/-- The look-ahead plan, when it is for this entry. -/
def planFor (s : State) (tag : Byte) : Option Plan := s.runner.lookAhead.filter (fun p => p.tag == tag)

/-- No carriage motion keeps an advance entry waiting: the carriage is at rest, or in the approach of a look-ahead plan
(R148). -/
def advanceClear (s : State) : Bool :=
  carriageAtRest s || (s.carriage.state == .approach && s.runner.lookAhead.isSome)

/-- The head entry leaves READY, with any look-ahead plan made for it, and its first phase starts: RETRACT when a park is
or will be there, else PREP or ADVANCE (R139, R151). The first order of PREP or ADVANCE, where nothing but a hold could keep
it back, is due from now on, so that a hold taken after the take-up stops only what follows it (R139). -/
def startHead (e : Entry) (s : State) : State :=
  let s1 := setHeadState (if e.pass.isSome then .active else .advancing)
    (s.setRunner { s.runner with
      headPlan := planFor s e.tag
      lookAhead := if (planFor s e.tag).isSome then none else s.runner.lookAhead
      firstOrderDue := !parkAhead s && (e.pass.isSome || advanceClear s) })
  if parkAhead s then giveRetract (s1.setRunner { s1.runner with phase := .retract }) else firstPhase s1

/-- TAKE_UP: the READY head entry is taken up when nothing holds the runner, no homing of CLEAR_FAULT is to be waited for and
no ABORT waits; a head entry in RETRACT whose park is still there is given the retract that was owed (R139, R158). -/
def takeUp (s : State) : State :=
  match s.queue with
  | [] => s
  | e :: _ =>
    if e.state = .ready ∧ mayTakeUp s = true ∧ s.runner.abortPending = false then startHead e s
    else giveRetract s

def execTakeUp (s : State) : Result := .next (takeUp s)

/-- PREP: the perforation skip. A skip that is called for is ordered when nothing holds the runner, or as the first order
of a take-up that came before the hold; when none is called for, PREP ends at once (R139, R140). -/
def prep (s : State) : State :=
  if s.runner.phase = .prep ∧ s.runner.point = .skipCheck ∧ headPrint s .active = true ∧ paperInFlight s = false then
    if skipNeeded (activeProfile s) s.paper.y then
      if mayOrderFirst s then
        takeOrder .skip (skipDistance (activeProfile s) s.paper.y) (firstOrderGiven s)
      else s
    else prepCheck (firstOrderGiven s)
  else s

def execPrep (s : State) : Result := .next (prep s)

/-- After masking, or when a suspended entry goes on: with nothing left to fire the entry goes to ADVANCE, else the heat
check is next (R141, R146). -/
def afterMasking (s : State) : State :=
  match s.queue.head?.bind Entry.pass with
  | none => s
  | some p =>
    if hasWork s.pool p then s.setRunner { s.runner with point := .heat }
    else s.setRunner { s.runner with phase := .advance, point := .skipCheck }

/-- The head entry has its masks already. -/
def headMasked (s : State) : Bool :=
  s.queue.head?.any (fun e => e.pass.any (fun p => p.suppressed.isSome))

/-- MASKING: at the end of PREP the entry's masks are fixed against the Y and PE held, unless PE is 0; an entry that holds
masks keeps them (R141, spec/01 R18). -/
def masking (s : State) : State :=
  if s.runner.phase = .prep ∧ s.runner.point = .mask ∧ headPrint s .active = true
      ∧ (headMasked s = true ∨ s.paper.pe ≠ some 0) then
    afterMasking (mapHeadPass (maskPass (activeProfile s) s.pool s.paper.y s.paper.pe) s)
  else s

def execMasking (s : State) : Result := .next (masking s)

/-- The point at which Hmax is read for the head entry: an ACTIVE entry before its plan, in COOL_WAIT, or in POSITION
without a plan; a HALTED entry when the runner may go on with the carriage at rest (R142, R158). -/
def heatCheckDue (s : State) : Bool :=
  (headPrint s .active &&
    ((s.runner.point == .heat && (s.runner.phase == .prep || s.runner.phase == .sweep))
      || s.runner.phase == .coolWait
      || (s.runner.phase == .position && s.runner.headPlan.isNone && carriageAtRest s)))
  || (headPrint s .halted && runnerFree s && carriageAtRest s)

/-- HEAT_CHECK: Hmax is read once; 5120 or more sends the entry to COOL_WAIT, less to POSITION; an entry already in
COOL_WAIT leaves it below 4096. A HALTED entry becomes ACTIVE (R142, R91). -/
def heatCheck (s : State) : State :=
  if heatCheckDue s then
    let s1 := setHeadState .active (s.setRunner { s.runner with point := .skipCheck })
    let limit := if s.runner.phase = .coolWait then Config.heatHot else Config.heatNoPlan
    if hmax s < limit then s1.setRunner { s1.runner with phase := .position }
    else s1.setRunner { s1.runner with phase := .coolWait }
  else s

def execHeatCheck (s : State) : Result := .next (heatCheck s)

/-- Plan the head entry's sweep and give the approach (R143): nothing to fire sends it to ADVANCE, a head too hot to
COOL_WAIT. -/
def planHead (e : Entry) (p : Pass) (pos : Nat) (s : State) : State :=
  match planSweep s e.tag p pos with
  | .noColumn => s.setRunner { s.runner with phase := .advance }
  | .tooHot => s.setRunner { s.runner with phase := .coolWait }
  | .made plan =>
    approachOrder plan.start.toNat
      (mapHeadPass (fun q => { q with dir := some plan.dir })
        (s.setRunner { s.runner with headPlan := some plan }))

/-- POSITION: with the carriage at rest and nothing holding the runner, an invalid position is homed, and with a valid one
the sweep is planned and the approach ordered (R143). -/
def position (s : State) : State :=
  if s.runner.phase = .position ∧ s.runner.headPlan = none ∧ headPrint s .active = true ∧ runnerFree s = true
      ∧ carriageAtRest s = true ∧ driverIdle s = true then
    match s.carriage.pos, s.queue.head? with
    | none, _ => settleTear (homingOrder .runner s)
    | some pos, some e =>
      match e.pass with
      | some p => planHead e p pos s
      | none => s
    | some _, none => s
  else s

def execPosition (s : State) : Result := .next (position s)

/-- SWEEP_ORDER: with the approach complete and no hold, the sweep order is given; a carriage that has been moved is
approached afresh with the same plan, and a position that has become invalid drops the plan (R144). -/
def sweepOrder (s : State) : State :=
  match s.runner.headPlan with
  | none => s
  | some plan =>
    if s.runner.phase = .position ∧ headPrint s .active = true ∧ runnerFree s = true ∧ carriageAtRest s = true
        ∧ paperInFlight s = false then
      match s.carriage.pos with
      | none => s.setRunner { s.runner with headPlan := none }
      | some pos => if (pos : Int) = plan.start then giveSweep plan s else approachOrder plan.start.toNat s
    else s

def execSweepOrder (s : State) : Result := .next (sweepOrder s)

/-- RESUME_SUSPENDED: a SUSPENDED head entry becomes ACTIVE when nothing holds the runner and, after a thermal suspend, Hmax
is below 3072 (R146). -/
def resumeSuspended (s : State) : State :=
  if headPrint s .suspended = true ∧ runnerFree s = true
      ∧ (s.runner.suspend = some .thermal → hmax s < Config.heatResume) then
    afterMasking (setHeadState .active (s.setRunner { s.runner with suspend := none }))
  else s

def execResumeSuspended (s : State) : Result := .next (resumeSuspended s)

/-- The distance the head entry's next advance order has: its remaining advance, else its distance or form feed (R147,
R148, spec/05 R100). -/
def advanceDistance (s : State) (e : Entry) : Int :=
  match e.remaining with
  | some n => n
  | none =>
    match e.advance with
    | .distance n => n
    | .formFeed => formFeedDistance (activeProfile s) s.paper.y

/-- ADVANCE_ORDER: with no dot outstanding, the carriage at rest and nothing holding the runner, the print entry becomes
ADVANCING and its advance, or what remains of it, is ordered (R147). -/
def advanceOrder (s : State) : State :=
  match s.queue with
  | [] => s
  | e :: _ =>
    match e.pass with
    | none => s
    | some p =>
      if s.runner.phase = .advance ∧ (e.state = .active ∨ e.state = .advancing) ∧ runnerFree s = true
          ∧ carriageAtRest s = true ∧ paperInFlight s = false ∧ anyOutstanding s.pool p = false then
        settleTear
          (takeOrder (.entryAdvance e.tag) (advanceDistance s e) (setHeadState .advancing (firstOrderGiven s)))
      else s

def execAdvanceOrder (s : State) : Result := .next (advanceOrder s)

/-- ADVANCE_ENTRY_ORDER: the runner orders an advance entry's distance or remaining advance when nothing holds it, or as
the first order of a take-up that came before the hold, and no carriage motion is in flight but the approach of a look-ahead
plan (R139, R148). -/
def advanceEntryOrder (s : State) : State :=
  match s.queue with
  | [] => s
  | e :: _ =>
    if e.pass = none ∧ s.runner.phase = .advance ∧ e.state = .advancing ∧ mayOrderFirst s = true
        ∧ advanceClear s = true ∧ paperInFlight s = false then
      settleTear (takeOrder (.entryAdvance e.tag) (advanceDistance s e) (firstOrderGiven s))
    else s

def execAdvanceEntryOrder (s : State) : Result := .next (advanceEntryOrder s)

/-- The signed distance the head's advance has still to move, while that advance is in flight (R150 condition 1). -/
def advanceLeft (s : State) : Option Int :=
  match s.paper.motion with
  | none => none
  | some m =>
    match m.purpose with
    | .entryAdvance _ => some m.left
    | _ => none

/-- Conditions 1 to 4 and 7 of R150, but for the queue's two entries. -/
def lookAheadOpen (s : State) : Bool :=
  s.runner.lookAhead.isNone && s.carriage.state == .idle && runnerFree s && paperInFlight s
    && decide (hmax s < Config.heatNoPlan)

/-- The next entry as the look-ahead masks it, against the predicted offset and countdown (R19). -/
def lookAheadPass (s : State) (left : Int) (p : Pass) : Pass :=
  maskPass (activeProfile s) s.pool (predictedY (activeProfile s) s.paper.y left) (predictedPe s.paper.pe left) p

/-- LOOK_AHEAD_PLAN: while the head's advance is in flight, the READY next print entry is masked against the predicted
offset and planned, and its approach is ordered; if any condition of R150 fails nothing is written. -/
def lookAheadPlan (s : State) : State :=
  match s.queue with
  | h :: e :: rest =>
    match e.pass, advanceLeft s, s.carriage.pos with
    | some p, some left, some pos =>
      if h.state = .advancing ∧ e.state = .ready ∧ lookAheadOpen s = true
          ∧ skipNeeded (activeProfile s) (predictedY (activeProfile s) s.paper.y left) = false
          ∧ anyOutstanding s.pool (lookAheadPass s left p) = true then
        match planSweep s e.tag (lookAheadPass s left p) pos with
        | .made plan =>
          approachOrder plan.start.toNat
            ((s.setRunner { s.runner with lookAhead := some plan }).setQueue
              (h :: { e with pass := some { lookAheadPass s left p with dir := some plan.dir } } :: rest))
        | .noColumn => s
        | .tooHot => s
      else s
    | _, _, _ => s
  | _ => s

def execLookAheadPlan (s : State) : Result := .next (lookAheadPlan s)

/-- ENTRY_ABORTED: with carriage and paper both at rest after an ABORT, the event is latched and abort pending ends
(R155). -/
def entryAborted (s : State) : State :=
  if s.runner.abortPending = true ∧ carriageAtRest s = true ∧ paperInFlight s = false then
    latch .entryAborted (s.setRunner { s.runner with abortPending := false })
  else s

def execEntryAborted (s : State) : Result := .next (entryAborted s)

end Sys2Proof.Machine
end

