-- ==== Sys2Proof/Machine/Requests.lean ====
section
/-! DEFINITION. The owners' handling of the 21 requests (spec/09 section 9.5): each is a function of the state to the
owner's verdict, a result code with any reply data. -/

namespace Sys2Proof.Machine

/-- The result codes (spec/09 "Result codes"). -/
inductive ResultCode where
  | ok
  | okClamped
  | busy
  | range
  | noSpace
  | noEntry
  | dupTag
  | closed
  | started
  | badMap
  | badLength
  | unknownKind
  | emptySlot
  | fault
deriving DecidableEq, Repr

/-- A result code on the line. -/
def ResultCode.byte : ResultCode → Byte
  | .ok => 0x00#8
  | .okClamped => 0x01#8
  | .busy => 0x10#8
  | .range => 0x11#8
  | .noSpace => 0x12#8
  | .noEntry => 0x13#8
  | .dupTag => 0x14#8
  | .closed => 0x15#8
  | .started => 0x16#8
  | .badMap => 0x17#8
  | .badLength => 0x18#8
  | .unknownKind => 0x19#8
  | .emptySlot => 0x1A#8
  | .fault => 0x1B#8

/-- An owner's verdict: the state it leaves, the result code, the reply data after the result code. -/
structure Verdict where
  state : State
  code : ResultCode
  data : List Byte
deriving DecidableEq, Repr

/-- A request carried out without reply data. -/
def accept (s : State) : Verdict := { state := s, code := .ok, data := [] }

/-- A refused request changes nothing and carries the result code alone (spec/09 R189). -/
def refuse (c : ResultCode) (s : State) : Verdict := { state := s, code := c, data := [] }

/-- OK, or OK_CLAMPED when a field was clipped, clamped or forced. -/
def okOr (clamped : Bool) : ResultCode := if clamped then .okClamped else .ok

/-! ## Event Unit -/

/-- IDENTIFY: part code, revision, queue, pool and slot capacities (spec/08 R173, spec/09 R199). -/
def reqIdentify (s : State) : Verdict :=
  { state := s, code := .ok,
    data := bytesLE 2 Config.partCode.toNat ++ [Config.revision] ++ bytesLE 1 Config.queueCapacity
      ++ bytesLE 1 Config.poolBlocks ++ bytesLE 1 Config.formSlots }

/-- GET_STATUS: one snapshot; it changes nothing (spec/08 R172). -/
def reqGetStatus (s : State) : Verdict := { state := s, code := .ok, data := statusBytes s }

/-- READ_EVENTS: the event set is reported and cleared, the conditions reported, up to four records removed
(spec/08 R170, spec/09 R199). -/
def reqReadEvents (s : State) : Verdict :=
  let taken := s.events.records.take Config.recordsPerRead
  let left := s.events.records.drop Config.recordsPerRead
  { state := s.setEvents { s.events with latched := 0#12, records := left }
    code := .ok
    data := bytesLE 2 s.events.latched.toNat ++ [conditionByte s] ++ bytesLE 1 taken.length ++ bytesLE 1 left.length
      ++ taken.flatMap completionBytes }

/-- SET_ATTN_MASK: the whole mask is replaced; positions that name nothing are not read (spec/08 R165). -/
def reqSetAttnMask (m : Word) (s : State) : Verdict :=
  accept (s.setEvents { s.events with mask := m &&& Config.maskNamed })

/-- RESET: from now on a reset is pending (spec/09 R190). -/
def reqReset (s : State) : Verdict := accept (s.setLink { s.link with resetPending := true })

/-! ## Mechanical configuration and pin map -/

/-- An entry is past READY, a look-ahead plan exists, or the carriage is not at rest (spec/01 R3, spec/04 R84). -/
def configBusy (s : State) : Bool := anyStarted s || s.runner.lookAhead.isSome || !carriageAtRest s

/-- Every field of a SET_MECH lies in its range, the group map against the F of the same request (spec/01 R3). -/
def mechInRange (r : MechRequest) : Bool :=
  decide (360 ≤ r.origin.toNat) && decide (r.origin.toNat ≤ 1500)
    && [r.lead0, r.lead1, r.lead2, r.lead3].all (fun l => decide (l.toNat ≤ 120))
    && decide (1 ≤ r.phaseCount.toNat) && decide (r.phaseCount.toNat ≤ 4)
    && r.groupMap.all (fun g => decide (g.toNat < r.phaseCount.toNat))
    && decide (r.window.toNat ≤ 250)

/-- The configuration a SET_MECH carries. -/
def mechOf (r : MechRequest) : Mech where
  origin := r.origin.toNat
  leads := [r.lead0.toNat, r.lead1.toNat, r.lead2.toNat, r.lead3.toNat]
  phaseCount := r.phaseCount.toNat
  groupMap := r.groupMap.map BitVec.toNat
  window := r.window.toNat

/-- SET_MECH: BUSY, then RANGE, else all five fields are replaced together (spec/01 R3). -/
def reqSetMech (r : MechRequest) (s : State) : Verdict :=
  if r.groupMap.length ≠ 24 then refuse .badLength s
  else if configBusy s then refuse .busy s
  else if mechInRange r then accept (s.setMech (mechOf r))
  else refuse .range s

/-- The numbers form a permutation of 0..23 (spec/04 R84). -/
def isPinMap (m : List Nat) : Bool := decide (m.length = 24) && m.all (fun x => decide (x < 24)) && decide m.Nodup

/-- SET_PIN_MAP: BUSY, then BAD_MAP, else the whole map is replaced (spec/04 R84). -/
def reqSetPinMap (outs : List Byte) (s : State) : Verdict :=
  if outs.length ≠ 24 then refuse .badLength s
  else if configBusy s then refuse .busy s
  else if isPinMap (outs.map BitVec.toNat) then
    accept (s.setDriver { s.driver with pinMap := outs.map BitVec.toNat })
  else refuse .badMap s

/-! ## Form Table -/

/-- A band adjusted against the held form length, in the order of R127. -/
def clampBand (len : Nat) (b : Band) : Band :=
  let top := if len ≤ b.top then len - 1 else b.top
  let height := if b.height = 0 then 1 else b.height
  { top := top, height := if len < top + height then len - top else height }

/-- The copies value a definition carries, 0..15 (spec/09 R196). -/
def sentCopies (r : FormRequest) : Nat := r.copies.toNat % 16

/-- The held form length (R125). -/
def heldLength (r : FormRequest) : Nat := min 8640 (max 360 r.length.toNat)

/-- The held tear fields: present for TRACTOR only (R125, R126). -/
def heldTear (path : PaperPath) (r : FormRequest) : Option Tear :=
  match path with
  | .tractor => some { idle := min 300 r.idle.toNat, offset := min 720 r.offset.toNat }
  | .friction => none

/-- The profile as held after the clamps of R125 to R127. -/
def heldProfile (path : PaperPath) (skipOn bidir : Bool) (r : FormRequest) : Profile where
  path := path
  length := heldLength r
  top := min (min 720 r.top.toNat) (heldLength r - 1)
  skip := min 720 r.skip.toNat
  skipOn := skipOn
  copies := min 6 (max 1 (sentCopies r))
  cap := min 3 r.cap.toNat
  bidir := bidir
  bands := (bandsOf r.bandData).map (clampBand (heldLength r))
  tear := heldTear path r

/-- The profile as it was sent, to compare with the held one. -/
def sentProfile (path : PaperPath) (skipOn bidir : Bool) (r : FormRequest) : Profile where
  path := path
  length := r.length.toNat
  top := r.top.toNat
  skip := r.skip.toNat
  skipOn := skipOn
  copies := sentCopies r
  cap := r.cap.toNat
  bidir := bidir
  bands := bandsOf r.bandData
  tear :=
    match path with
    | .tractor => some { idle := r.idle.toNat, offset := r.offset.toNat }
    | .friction => none

/-- With skip enabled, L − S − T is below 48 (R128). -/
def skipTooTight (p : Profile) : Bool :=
  p.skipOn && decide ((p.length : Int) - p.skip - p.top < 48)

/-- A carried-out definition writes the slot; of the active slot it also reduces Y modulo the new length and restarts the
tear timer (R130, R131, spec/05 R119). -/
def storeForm (slot : Nat) (p : Profile) (s : State) : State :=
  let s1 := s.setForms { s.forms with slots := s.forms.slots.set slot (some p) }
  if slot = s.forms.active then
    settleTear (stopTear (s1.setPaper { s1.paper with y := s1.paper.y % p.length }))
  else s1

/-- DEFINE_FORM: the six checks of R129 in order, then the definition. -/
def reqDefineForm (r : FormRequest) (s : State) : Verdict :=
  if r.bandData.length ≠ 4 * r.bandCount.toNat then refuse .badLength s
  else if 15 < r.slot.toNat then refuse .range s
  else if r.slot.toNat = s.forms.active ∧ s.queue ≠ [] then refuse .busy s
  else
    match pathOf r.path, yesNoOf r.skipOn, yesNoOf r.bidir with
    | some path, some skipOn, some bidir =>
      if 4 < r.bandCount.toNat then refuse .range s
      else
        let p := heldProfile path skipOn bidir r
        if skipTooTight p then refuse .range s
        else
          { state := storeForm r.slot.toNat p s
            code := okOr (p != sentProfile path skipOn bidir r)
            data := [] }
    | _, _, _ => refuse .range s

/-- READ_FORM: the profile as held, behind a flags byte (R132, spec/09 R196). -/
def reqReadForm (slot : Byte) (s : State) : Verdict :=
  if 15 < slot.toNat then refuse .range s
  else
    match s.forms.slots.getD slot.toNat none with
    | none => refuse .emptySlot s
    | some p =>
      { state := s, code := .ok,
        data := flagsByte [slot.toNat == s.forms.active, p.tear.isSome] :: profileBytes p }

/-- Discard a park without motion: TEAR_PARKED becomes IDLE, other states stay (spec/05 R117). -/
def dropPark (s : State) : State :=
  s.setPaper { s.paper with
    park := none
    state := if s.paper.state = .tearParked then .idle else s.paper.state }

/-- Declare the top of form under pin row 0. -/
def zeroY (s : State) : State := s.setPaper { s.paper with y := 0 }

/-- SELECT_FORM: RANGE, BUSY, EMPTY_SLOT in order; else the slot becomes active, Y becomes 0 and any park is discarded
(R133, R134). -/
def reqSelectForm (slot : Byte) (s : State) : Verdict :=
  if 15 < slot.toNat then refuse .range s
  else if s.queue ≠ [] ∨ paperInFlight s = true ∨ carriageAtRest s = false then refuse .busy s
  else
    match s.forms.slots.getD slot.toNat none with
    | none => refuse .emptySlot s
    | some _ =>
      accept (settleTear (stopTear (dropPark (zeroY (s.setForms { s.forms with active := slot.toNat })))))

/-! ## Paper Drive and carriage -/

/-- Motion in flight, or an entry past READY (spec/03 R53, spec/05 R118). -/
def motionBusy (s : State) : Bool := paperInFlight s || !carriageAtRest s || anyStarted s

/-- SET_TOF: Y becomes 0 and any park is discarded (spec/05 R118). -/
def reqSetTof (s : State) : Verdict :=
  if motionBusy s then refuse .busy s else accept (settleTear (dropPark (zeroY s)))

/-- HOME: FAULT, then BUSY, else a homing order (spec/03 R53). -/
def reqHome (s : State) : Verdict :=
  if s.runner.fault.isSome then refuse .fault s
  else if motionBusy s then refuse .busy s
  else accept (settleTear (homingOrder .host s))

/-! ## Print Queue (spec/02) -/

/-- An entry as it is when it closes (R27, R32, R33). -/
def closeEntry (e : Entry) : Entry :=
  { e with state := .ready, pass := e.pass.map (fun p => { p with deadline := none }) }

/-- Close any OPEN entry (R27 step 1). -/
def closeOpen (q : List Entry) : List Entry := q.map (fun e => if e.state = .opened then closeEntry e else e)

/-- The deadline that the close window sets now: absent when W is 0 (R5). -/
def deadlineNow (s : State) : Option Word :=
  if s.mech.window = 0 then none else some (s.time.ms + BitVec.ofNat 32 s.mech.window)

/-- Start the window timer for W ms, or stop it when W is 0 (R27 step 3). -/
def startWindow (s : State) : State :=
  s.setTime { s.time with window := if s.mech.window = 0 then none else some s.mech.window }

/-- The print entry that OPEN_PASS appends, as R26 adjusts it. -/
def newPass (d : Density) (pref : Preference) (span : Nat) (r : PassRequest) (s : State) : Entry where
  tag := r.tag
  state := .opened
  advance := if r.flags.getLsbD 0 then .formFeed else .distance (min 1440 r.distance.toNat : Nat)
  remaining := none
  pass := some
    { density := d, start := r.start.toNat, span := span, pref := pref,
      slots := List.replicate Config.blockSlots none, suppressed := none, dir := none, resumeA := none,
      resumeB := none, dotsFired := 0, dotsSuppressed := 0, dotsLost := 0, sweeps := 0, deadline := deadlineNow s }

/-- OPEN_PASS: RANGE, DUP_TAG, NO_SPACE in order (R25); then the adjustments of R26 and the acts of R27. -/
def reqOpenPass (r : PassRequest) (s : State) : Verdict :=
  match densityOf r.density, preferenceOf r.pref with
  | some d, some pref =>
    if d.limit ≤ r.start.toNat ∨ r.span.toNat = 0 then refuse .range s
    else if (findEntry s.queue r.tag).isSome then refuse .dupTag s
    else if Config.queueCapacity ≤ s.queue.length then refuse .noSpace s
    else
      let span := min r.span.toNat (d.limit - r.start.toNat)
      let pref' := if pref = .rev ∧ (activeProfile s).bidir = false then .fwd else pref
      let clamped := span != r.span.toNat || pref' != pref
        || (!r.flags.getLsbD 0 && decide (1440 < r.distance.toNat))
      { state := settleTear (startWindow (s.setQueue (closeOpen s.queue ++ [newPass d pref' span r s])))
        code := okOr clamped
        data := bytesLE 2 span ++ [preferenceCode pref'] }
  | _, _ => refuse .range s

/-- The block slots the kept columns touch: one, or two adjacent ones (R30). -/
def touchedSlots (o k : Nat) : List Nat :=
  if o / Config.blockColumns = (o + k - 1) / Config.blockColumns then [o / Config.blockColumns]
  else [o / Config.blockColumns, (o + k - 1) / Config.blockColumns]

/-- Give each absent slot of a list the lowest free block, lower slots first (R39). -/
def allocate : List Nat → Pool → List (Option Nat) → Pool × List (Option Nat)
  | [], pool, slots => (pool, slots)
  | k :: t, pool, slots =>
    match pool.freeList.head? with
    | none => (pool, slots)
    | some b => allocate t (pool.take b) (slots.set k (some b))

/-- Merge one column into the pool by OR (R31). -/
def mergeColumn (pool : Pool) (p : Pass) (c : Nat) (dots : Rows) : Pool :=
  match p.address c with
  | none => pool
  | some k => pool.write k { pool.read k with dots := (pool.read k).dots ||| dots }

/-- Merge columns at pass columns c, c + 1, … (R31). -/
def mergeColumns : List Rows → Nat → Pass → Pool → Pool
  | [], _, _, pool => pool
  | d :: t, c, p, pool => mergeColumns t (c + 1) p (mergeColumn pool p c d)

/-- Carry out an IMAGE for the OPEN entry's pass: `dots` are the kept columns, from pass column o; the window restarts
(R30, R31). -/
def carryImage (tag : Byte) (p : Pass) (o : Nat) (dots : List Rows) (missing : List Nat) (s : State) : State :=
  let got := allocate missing s.pool p.slots
  let p' := { p with slots := got.2, deadline := deadlineNow s }
  startWindow
    ((s.setPool (mergeColumns dots o p' got.1)).setQueue
      (updateEntry s.queue tag (fun e => { e with pass := some p' })))

/-- IMAGE: BAD_LENGTH, NO_ENTRY, CLOSED, RANGE in order (R28), then NO_SPACE (R30); then it is carried out. -/
def reqImage (tag : Byte) (offset : Half) (count : Byte) (data : List Byte) (s : State) : Verdict :=
  if data.length ≠ 3 * count.toNat then refuse .badLength s
  else
    match findEntry s.queue tag with
    | none => refuse .noEntry s
    | some e =>
      if e.state ≠ .opened then refuse .closed s
      else
        match e.pass with
        | none => refuse .closed s
        | some p =>
          if count.toNat = 0 ∨ 64 < count.toNat ∨ p.span ≤ offset.toNat then refuse .range s
          else
            let kept := min count.toNat (p.span - offset.toNat)
            let missing := (touchedSlots offset.toNat kept).filter (fun k => (p.slots.getD k none).isNone)
            if s.pool.freeCount < missing.length then refuse .noSpace s
            else
              let s1 := carryImage tag p offset.toNat ((columnsOf data).take kept) missing s
              { state := s1
                code := okOr (kept != count.toNat)
                data := bytesLE 1 kept ++ bytesLE 1 s1.pool.freeCount }

/-- CLOSE_PASS (R32). -/
def reqClosePass (tag : Byte) (s : State) : Verdict :=
  match findEntry s.queue tag with
  | none => refuse .noEntry s
  | some e =>
    if e.state = .opened then accept (stopWindow (s.setQueue (updateEntry s.queue tag closeEntry)))
    else refuse .closed s

/-- A distance limited to −360..+1440 (R35). -/
def limitDistance (n : Int) : Int := max (-360) (min 1440 n)

/-- QUEUE_ADVANCE: DUP_TAG, then NO_SPACE; else a READY advance entry joins (R35). -/
def reqQueueAdvance (tag : Byte) (distance : Half) (flags : Byte) (s : State) : Verdict :=
  if (findEntry s.queue tag).isSome then refuse .dupTag s
  else if Config.queueCapacity ≤ s.queue.length then refuse .noSpace s
  else
    let ff := flags.getLsbD 0
    let n := limitDistance distance.toInt
    let e : Entry :=
      { tag := tag, state := .ready, advance := if ff then .formFeed else .distance n, remaining := none, pass := none }
    { state := settleTear (s.setQueue (s.queue ++ [e]))
      code := okOr (!ff && n != distance.toInt)
      data := [] }

/-- Remove the entry of a tag from the queue, its blocks going back to the pool (R36, R41). -/
def removeEntry (e : Entry) (s : State) : State :=
  (freeEntry e s).setQueue (s.queue.filter (fun x => x.tag != e.tag))

/-- CANCEL_ENTRY: NO_ENTRY; STARTED when the entry is past READY or planned ahead; else it is removed (R36). -/
def reqCancelEntry (tag : Byte) (s : State) : Verdict :=
  match findEntry s.queue tag with
  | none => refuse .noEntry s
  | some e =>
    match e.state with
    | .opened => accept (settleTear (removeEntry e (stopWindow s)))
    | .ready =>
      if s.runner.lookAhead.any (fun p => p.tag == tag) then refuse .started s
      else accept (settleTear (removeEntry e s))
    | .active => refuse .started s
    | .suspended => refuse .started s
    | .halted => refuse .started s
    | .advancing => refuse .started s

/-! ## Queue Runner (spec/07) -/

/-- PAUSE: the flag is set and a suspend trigger handed to the Carriage Controller (R152). -/
def reqPause (s : State) : Verdict := accept (settleTear (suspendTrigger .hold (setPause true s)))

/-- RESUME: the flag is cleared (R153). -/
def reqResume (s : State) : Verdict := accept (settleTear (setPause false s))

/-- The started head entry's ABORTED record (R154 step 1). -/
def recordAborted (s : State) : State :=
  match s.queue with
  | [] => s
  | e :: _ => if e.state.started then pushRecord (completionOf e .aborted s) s else s

/-- Every entry leaves the queue and gives back its blocks (R154 step 2). -/
def emptyQueue (s : State) : State := stopWindow ((freeEntries s.queue s).setQueue [])

/-- Carriage or paper motion is in flight. -/
def anyMotion (s : State) : Bool := !carriageAtRest s || paperInFlight s

/-- ABORT: the started head entry's record, the queue, the plans and the phase, and both motions; ENTRY_ABORTED at once when
nothing was moving, else abort pending (R154, R155, R157). -/
def abortAll (s : State) : State :=
  let s1 := emptyQueue (recordAborted s)
  let s2 := s1.setRunner { s1.runner with
    phase := .noPhase, point := .skipCheck, suspend := none, headPlan := none, lookAhead := none,
    homingOwed := false, firstOrderDue := false, abortPending := anyMotion s }
  let s3 := stopPaper .abort (abortCarriage s2)
  if anyMotion s then s3 else latch .entryAborted s3

def reqAbort (s : State) : Verdict := accept (settleTear (abortAll s))

/-- CLEAR_FAULT: BUSY in HOMING, then RANGE with no fault; else the record clears, and with an invalid position a homing is
given at once at rest and owed otherwise (R157). -/
def reqClearFault (s : State) : Verdict :=
  if s.carriage.state = .homing then refuse .busy s
  else if s.runner.fault.isNone then refuse .range s
  else
    let s1 := s.setRunner { s.runner with fault := none }
    if s.carriage.pos.isSome then accept (settleTear s1)
    else
      accept (settleTear (giveOwedHoming (s1.setRunner { s1.runner with homingOwed := true })))

end Sys2Proof.Machine
end

