-- ==== Sys2Proof/Machine/Link.lean ====
section
/-! DEFINITION. The Link Port (spec/09): the line, CRC, frames, replies, rejections, the receive assembler, dispatch; and
the 21 request commands, each the completion of a valid frame of its kind. -/

namespace Sys2Proof.Machine

/-! ## The line (R178, R183, R186)

One level stands for one bit time (log entry 28). -/

/-- The idle level of TXD and RXD, high (R178). -/
def lineIdle : Bool := true

/-- A byte on the line: a low start bit, eight data bits from the least significant one, no parity, a high stop bit
(R178). -/
def lineChar (b : Byte) : List Bool := false :: (List.range 8).map b.getLsbD ++ [true]

/-- The rate in bit/s (R178). -/
def Rate.bitsPerSecond : Rate → Nat
  | .r38400 => 38400
  | .r115200 => 115200
  | .r460800 => 460800
  | .r921600 => 921600

/-- The byte time in nanoseconds, ten bit times (R178). -/
def Rate.byteTime (r : Rate) : Nat := 10 * 1000000000 / r.bitsPerSecond

/-- The levels TXD carries, one a bit time, until the oldest reply has left: its bytes back to back (R178, R186); none while
RESET_N is low, which cuts a byte short (R191). -/
def txdBits (s : State) : List Bool := if s.pins.resetLow then [] else (s.link.fifo.headD []).flatMap lineChar

/-- The level of TXD at a bit time counted from the start of the oldest reply; idle where nothing is sent. -/
def txd (s : State) (k : Nat) : Bool := (txdBits s).getD k lineIdle

/-- Where the receiver stands: waiting for a start bit, within a byte with the data bits so far, or waiting for RXD to return
high after a line fault (R183). -/
inductive Receiver where
  | waiting
  | char (bits : List Bool)
  | held
deriving DecidableEq, Repr

/-- The commands that the levels on RXD, one a bit time, give the Link Port: a byte with its stop bit high is BYTE_RECEIVED,
one with its stop bit low is LINE_FAULT, and after that RXD must return high before the next start bit (R178, R183). -/
def rxdCommands : Receiver → List Bool → List Instr
  | _, [] => []
  | .waiting, l :: t => rxdCommands (if l then .waiting else .char []) t
  | .held, l :: t => rxdCommands (if l then .waiting else .held) t
  | .char bits, l :: t =>
    if bits.length < 8 then rxdCommands (.char (bits ++ [l])) t
    else if l then .byteReceived (flagsByte bits) :: rxdCommands .waiting t
    else .lineFault :: rxdCommands .held t

/-! ## CRC (R184) -/

/-- One shift of the CRC register. -/
def crcShift (r : BitVec 16) : BitVec 16 := if r.getLsbD 15 then (r <<< 1) ^^^ 0x1021#16 else r <<< 1

/-- One byte into the CRC register. -/
def crcByte (r : BitVec 16) (b : Byte) : BitVec 16 :=
  (List.range 8).foldl (fun x _ => crcShift x) (r ^^^ (b.setWidth 16 <<< 8))

/-- The CRC of some bytes. -/
def crc (bs : List Byte) : BitVec 16 := bs.foldl crcByte 0xFFFF#16

/-! ## Replies and rejections (R185, R186, R189) -/

/-- A frame of a kind: start byte, length, kind, payload, CRC low byte first (R193). -/
def frameOf (kind : Byte) (payload : List Byte) : List Byte :=
  let body := BitVec.ofNat 8 (payload.length + 1) :: kind :: payload
  0xE7#8 :: body ++ bytesLE 2 (crc body).toNat

/-- A reply joins the tail of the FIFO. -/
def queueReply (frame : List Byte) (s : State) : State :=
  s.setLink { s.link with fifo := s.link.fifo ++ [frame] }

/-- The FIFO has no free place. -/
def fifoFull (s : State) : Bool := decide (Config.fifoCapacity ≤ s.link.fifo.length)

/-- The assembler goes back to HUNT with its buffer empty and its timer stopped. -/
def clearAssembler (s : State) : State :=
  stopByteGap (s.setLink { s.link with asm := .hunt, buffer := [], frameLen := none })

/-- A frame is rejected with a reason: LINK_ERROR, and a FRAME_REJECT when the FIFO has room; in silence while a reset is
pending (R185, R190). -/
def rejectFrame (reason : Byte) (s : State) : State :=
  let s1 := clearAssembler s
  if s.link.resetPending then s1
  else if fifoFull s then latch .linkError s1
  else latch .linkError (queueReply (frameOf 0xFF#8 [reason]) s1)

/-! ## Taking a request (R187 to R190) -/

/-- A valid frame of a kind is taken: it is lost while RESET_N is low (R191), discarded in silence while a reset is pending
(R190), overrun when the FIFO holds two replies (R187), and else handed to its owner, whose verdict is queued as the
reply (R188, R189). -/
def takeRequest (kind : Byte) (owner : State → Verdict) (s : State) : State :=
  if s.pins.resetLow then s
  else if s.link.resetPending then s
  else if fifoFull s then latch .linkError s
  else
    queueReply (frameOf (kind ||| 0x80#8) ((owner s).code.byte :: (owner s).data)) (owner s).state

/-- A kind whose payload has a fixed length of no bytes (R188). -/
def noPayload (owner : State → Verdict) : List Byte → State → Verdict
  | [] => owner
  | _ :: _ => refuse .badLength

/-- A kind whose payload is one byte (R188). -/
def onePayload (owner : Byte → State → Verdict) : List Byte → State → Verdict
  | [b] => owner b
  | _ => refuse .badLength

/-- A kind whose payload is read by a reader that fails on a wrong length (R188). -/
def readPayload {α : Type} (read : List Byte → Option α) (owner : α → State → Verdict) (payload : List Byte) :
    State → Verdict :=
  match read payload with
  | some r => owner r
  | none => refuse .badLength

/-- An IMAGE shorter than its four fields is BAD_LENGTH (spec/02 R28). -/
def imagePayload : List Byte → State → Verdict
  | t :: o0 :: o1 :: k :: data => reqImage t (half o0 o1) k data
  | _ => refuse .badLength

def advancePayload : List Byte → State → Verdict
  | [t, n0, n1, f] => reqQueueAdvance t (half n0 n1) f
  | _ => refuse .badLength

/-- The owner of a kind, with the payload (R188 and the request-kind table); an unlisted kind is answered
UNKNOWN_KIND. -/
def ownerOf (kind : Byte) (payload : List Byte) : State → Verdict :=
  match kind.toNat with
  | 0x01 => noPayload reqIdentify payload
  | 0x02 => noPayload reqGetStatus payload
  | 0x03 => noPayload reqReadEvents payload
  | 0x04 => readPayload readMask reqSetAttnMask payload
  | 0x05 => noPayload reqReset payload
  | 0x10 => readPayload readMech reqSetMech payload
  | 0x11 => reqSetPinMap payload
  | 0x12 => readPayload readForm reqDefineForm payload
  | 0x13 => onePayload reqReadForm payload
  | 0x14 => onePayload reqSelectForm payload
  | 0x15 => noPayload reqSetTof payload
  | 0x20 => readPayload readPass reqOpenPass payload
  | 0x21 => imagePayload payload
  | 0x22 => onePayload reqClosePass payload
  | 0x23 => advancePayload payload
  | 0x24 => onePayload reqCancelEntry payload
  | 0x30 => noPayload reqPause payload
  | 0x31 => noPayload reqResume payload
  | 0x32 => noPayload reqAbort payload
  | 0x33 => noPayload reqClearFault payload
  | 0x34 => noPayload reqHome payload
  | _ => refuse .unknownKind

/-! ## The receive assembler (R179 to R183) -/

/-- Store a byte of a frame and restart the byte-gap timer. -/
def storeByte (b : Byte) (asm : Assembler) (s : State) : State :=
  startByteGap (s.setLink { s.link with buffer := s.link.buffer ++ [b], asm := asm })

/-- The length n of the frame being received. -/
def frameLength (s : State) : Nat := s.link.frameLen.getD 0

/-- The last byte of a frame is stored: the CRC over the length byte, the kind and the payload is compared with the one
carried; an equal one makes a request, another rejects the frame (R181). -/
def completeFrame (b : Byte) (s : State) : State :=
  let buf := s.link.buffer ++ [b]
  let n := frameLength s
  if crc ((buf.drop 1).take (n + 1)) = half (buf.getD (n + 2) 0#8) (buf.getD (n + 3) 0#8) then
    takeRequest (buf.getD 2 0#8) (ownerOf (buf.getD 2 0#8) ((buf.drop 3).take (n - 1))) (clearAssembler s)
  else rejectFrame 0xE1#8 s

/-- FRAME_COMPLETE: the byte is the second CRC byte of the frame in the assembler (R181). -/
def frameComplete (b : Byte) (s : State) : State :=
  if s.pins.resetLow = false ∧ s.link.asm = .check ∧ s.link.buffer.length = frameLength s + 3 then completeFrame b s
  else s

def execFrameComplete (b : Byte) (s : State) : Result := .next (frameComplete b s)

/-- A length byte that is a length fault (R180). -/
def badLengthByte (b : Byte) : Bool := b.toNat == 0 || decide (253 ≤ b.toNat)

/-- LENGTH_FAULT: a length byte of 0 or 253..255 in LENGTH rejects the frame with reason LENGTH (R180). -/
def lengthFault (b : Byte) (s : State) : State :=
  if s.pins.resetLow = false ∧ s.link.asm = .length ∧ badLengthByte b = true then rejectFrame 0xE2#8 s else s

def execLengthFault (b : Byte) (s : State) : Result := .next (lengthFault b s)

/-- LINE_FAULT: a missing stop bit or a break inside a frame rejects it with reason LINE; in HUNT it is discarded
(R183). -/
def lineFault (s : State) : State :=
  if s.pins.resetLow = false ∧ s.link.asm ≠ .hunt then rejectFrame 0xE3#8 s else s

def execLineFault (s : State) : Result := .next (lineFault s)

/-- BYTE_GAP_TIMER_EXPIRY: a due byte-gap timer inside a frame rejects it with reason GAP (R182). -/
def byteGapTimerExpiry (s : State) : State :=
  if s.time.byteGap = some 0 ∧ s.link.asm ≠ .hunt then rejectFrame 0xE4#8 s else s

def execByteGapTimerExpiry (s : State) : Result := .next (byteGapTimerExpiry s)

/-- BYTE_RECEIVED: a byte is handled by the assembler state it finds (R179); while RESET_N is low it is ignored (R191). -/
def byteReceived (b : Byte) (s : State) : State :=
  if s.pins.resetLow then s
  else
    match s.link.asm with
    | .hunt => if b = 0xE7#8 then storeByte b .length s else s
    | .length =>
      if badLengthByte b then lengthFault b s
      else storeByte b .body (s.setLink { s.link with frameLen := some b.toNat })
    | .body =>
      if frameLength s + 2 ≤ s.link.buffer.length + 1 then storeByte b .check s else storeByte b .body s
    | .check =>
      if s.link.buffer.length = frameLength s + 3 then frameComplete b s else storeByte b .check s

def execByteReceived (b : Byte) (s : State) : Result := .next (byteReceived b s)

/-! ## The request commands -/

def execIdentify (s : State) : Result := .next (takeRequest 0x01#8 reqIdentify s)

def execGetStatus (s : State) : Result := .next (takeRequest 0x02#8 reqGetStatus s)

def execReadEvents (s : State) : Result := .next (takeRequest 0x03#8 reqReadEvents s)

def execSetAttnMask (mask : Word) (s : State) : Result := .next (takeRequest 0x04#8 (reqSetAttnMask mask) s)

def execReset (s : State) : Result := .next (takeRequest 0x05#8 reqReset s)

def execSetMech (request : MechRequest) (s : State) : Result := .next (takeRequest 0x10#8 (reqSetMech request) s)

def execSetPinMap (outputs : List Byte) (s : State) : Result := .next (takeRequest 0x11#8 (reqSetPinMap outputs) s)

def execDefineForm (request : FormRequest) (s : State) : Result :=
  .next (takeRequest 0x12#8 (reqDefineForm request) s)

def execReadForm (slot : Byte) (s : State) : Result := .next (takeRequest 0x13#8 (reqReadForm slot) s)

def execSelectForm (slot : Byte) (s : State) : Result := .next (takeRequest 0x14#8 (reqSelectForm slot) s)

def execSetTof (s : State) : Result := .next (takeRequest 0x15#8 reqSetTof s)

def execOpenPass (request : PassRequest) (s : State) : Result := .next (takeRequest 0x20#8 (reqOpenPass request) s)

def execImage (tag : Byte) (offset : Half) (count : Byte) (data : List Byte) (s : State) : Result :=
  .next (takeRequest 0x21#8 (reqImage tag offset count data) s)

def execClosePass (tag : Byte) (s : State) : Result := .next (takeRequest 0x22#8 (reqClosePass tag) s)

def execQueueAdvance (tag : Byte) (distance : Half) (flags : Byte) (s : State) : Result :=
  .next (takeRequest 0x23#8 (reqQueueAdvance tag distance flags) s)

def execCancelEntry (tag : Byte) (s : State) : Result := .next (takeRequest 0x24#8 (reqCancelEntry tag) s)

def execPause (s : State) : Result := .next (takeRequest 0x30#8 reqPause s)

def execResume (s : State) : Result := .next (takeRequest 0x31#8 reqResume s)

def execAbort (s : State) : Result := .next (takeRequest 0x32#8 reqAbort s)

def execClearFault (s : State) : Result := .next (takeRequest 0x33#8 reqClearFault s)

def execHome (s : State) : Result := .next (takeRequest 0x34#8 reqHome s)

end Sys2Proof.Machine
end

