-- ==== Sys2Proof/Machine/Reset.lean ====
section
/-! DEFINITION. Power-on reset, warm reset by request and by RESET_N, the departure of a reply (spec/09 section 9.6,
spec/09 R186), and the Time Base's tick with the window timer (spec/08 R174 to R177, spec/02 R33). -/

namespace Sys2Proof.Machine

/-- The rate the straps select (spec/09 R178). -/
def rateOf (strapB strapA : Bool) : Rate :=
  match strapB, strapA with
  | false, false => .r38400
  | false, true => .r115200
  | true, false => .r460800
  | true, true => .r921600

/-- Sample the straps as a reset ends (spec/09 R178). -/
def sampleStraps (strapB strapA : Bool) (s : State) : State :=
  (s.setPins { s.pins with strapB := strapB, strapA := strapA }).setLink { s.link with rate := rateOf strapB strapA }

/-- The Paper Drive at a warm reset: motion stops at once, the park is discarded, Y, a and PE are kept, and OUT stays OUT
until the sensor is read (spec/05 R122). -/
def warmPaper (p : Paper) : Paper :=
  { p with state := if p.state = .out then .out else .idle, park := none, motion := none }

/-- Every block at its warm-reset values (spec/09 "What a warm reset does, by owner"). -/
def warmValues (s : State) : State where
  link :=
    { asm := .hunt, buffer := [], frameLen := none, fifo := [], resetPending := false, rate := s.link.rate }
  mech := s.mech
  queue := []
  pool := Pool.reset
  runner := Runner.reset
  carriage := Carriage.reset
  driver := { State.reset.driver with pinMap := s.driver.pinMap }
  heat := s.heat
  paper := warmPaper s.paper
  forms := s.forms
  events := Events.reset
  time := { s.time with window := none, tearIdle := none, stall := none, byteGap := none }
  pins := s.pins
  outputs := { s.outputs with pinOut := 0#24 }
  pending := s.pending

/-- The end-of-reset reading of the paper-end sensor (spec/05 R121, R122). -/
def readPaperSensor (s : State) : State :=
  if s.pins.paperSeen then s.setPaper { s.paper with pe := none, state := .idle }
  else
    match s.paper.pe with
    | none => latch .paperEnd (s.setPaper { s.paper with pe := some 0, state := .out })
    | some 0 => s.setPaper { s.paper with state := .out }
    | some (_ + 1) => s.setPaper { s.paper with state := .idle }

/-- A reset ends: the straps are sampled, the paper-end sensor is read, and the tear timer starts where it is called for
(spec/09 R190, R191, spec/05 R122). -/
def endReset (strapB strapA : Bool) (s : State) : State :=
  settleTear (readPaperSensor (sampleStraps strapB strapA s))

/-- POWER_ON_RESET: every block at its initial values, then the readings of the reset's end, under the levels the input
pins have (spec/05 R121, spec/09 R178). DESIGN CHOICE (log entry 3): RESET_N is high as the power-on reset ends; the spec does
not say what a RESET_N held low at power-up does, and the command carries no level of it. -/
def powerOnReset (l : Levels) (s : State) : State :=
  endReset l.strapB l.strapA ((State.reset.setPending s.pending).setPins
    { strapB := l.strapB, strapA := l.strapA, homeCovered := l.homeCovered, paperSeen := l.paperSeen,
      coverOpen := l.coverOpen, driveFault := l.driveFault, encA := l.encA, encB := l.encB, resetLow := false })

def execPowerOnReset (levels : Levels) (s : State) : Result := .next (powerOnReset levels s)

/-- RESET_N_ASSERT: RESET_N goes low and a warm reset begins at once (spec/09 R191). -/
def resetNAssert (s : State) : State :=
  if s.pins.resetLow then s else (warmValues s).setPins { s.pins with resetLow := true }

def execResetNAssert (s : State) : Result := .next (resetNAssert s)

/-- RESET_N_RELEASE: RESET_N returns high and the reset ends (spec/09 R191). -/
def resetNRelease (strapB strapA : Bool) (s : State) : State :=
  if s.pins.resetLow then endReset strapB strapA (s.setPins { s.pins with resetLow := false }) else s

def execResetNRelease (strapB strapA : Bool) (s : State) : Result := .next (resetNRelease strapB strapA s)

/-- The RESET reply is the oldest reply: it is the last one queued, since a pending reset lets none join (spec/09 R190). -/
def resetReplyNext (s : State) : Bool := s.link.resetPending && decide (s.link.fifo.length = 1)

/-- WARM_RESET: the last stop bit of the RESET reply has left TXD; every block takes its warm-reset values and the reset
ends in the same act (spec/09 R190). -/
def warmReset (strapB strapA : Bool) (s : State) : State :=
  if resetReplyNext s then endReset strapB strapA (warmValues s) else s

def execWarmReset (strapB strapA : Bool) (s : State) : Result := .next (warmReset strapB strapA s)

/-- REPLY_SENT: the oldest reply leaves the FIFO (spec/09 R186); the departure of the RESET reply is the warm reset itself,
with the straps as they stand (R190). -/
def replySent (s : State) : State :=
  if resetReplyNext s then warmReset s.pins.strapB s.pins.strapA s
  else s.setLink { s.link with fifo := s.link.fifo.tail }

def execReplySent (s : State) : Result := .next (replySent s)

/-! ## Time Base -/

/-- MS_TICK: the counter rises and wraps, the running timers count down, and every tenth tick gives a cooling tick
(spec/08 R174 to R176). -/
def msTick (s : State) : State :=
  s.setTime
    { ms := s.time.ms + 1#32
      divider := if 9 ≤ s.time.divider then 0 else s.time.divider + 1
      coolingOwed := if 9 ≤ s.time.divider then s.time.coolingOwed + 1 else s.time.coolingOwed
      window := tickTimer s.time.window
      tearIdle := tickTimer s.time.tearIdle
      stall := tickTimer s.time.stall
      byteGap := tickTimer s.time.byteGap }

def execMsTick (s : State) : Result := .next (msTick s)

/-- WINDOW_TIMER_EXPIRY: a due window timer closes the OPEN entry and AUTO_CLOSED is latched (spec/02 R33). -/
def windowTimerExpiry (s : State) : State :=
  if s.time.window = some 0 ∧ s.queue.any (fun e => e.state == .opened) = true then
    latch .autoClosed (stopWindow (s.setQueue (closeOpen s.queue)))
  else s

def execWindowTimerExpiry (s : State) : Result := .next (windowTimerExpiry s)

end Sys2Proof.Machine
end

