-- ==== Sys2Proof/Machine/Dispatch.lean ====
section
/-! DEFINITION. The dispatch: one arm per command, one direct call of its meaning. -/

namespace Sys2Proof.Machine

def exec (i : Instr) (s : State) : Host.Outcome State Fault Refusal :=
  match i with
  | .powerOnReset levels => Sys2Proof.Machine.execPowerOnReset levels s
  | .resetNAssert => Sys2Proof.Machine.execResetNAssert s
  | .resetNRelease strapB strapA => Sys2Proof.Machine.execResetNRelease strapB strapA s
  | .warmReset strapB strapA => Sys2Proof.Machine.execWarmReset strapB strapA s
  | .frameComplete byte => Sys2Proof.Machine.execFrameComplete byte s
  | .lengthFault byte => Sys2Proof.Machine.execLengthFault byte s
  | .lineFault => Sys2Proof.Machine.execLineFault s
  | .byteGapTimerExpiry => Sys2Proof.Machine.execByteGapTimerExpiry s
  | .replySent => Sys2Proof.Machine.execReplySent s
  | .identify => Sys2Proof.Machine.execIdentify s
  | .getStatus => Sys2Proof.Machine.execGetStatus s
  | .readEvents => Sys2Proof.Machine.execReadEvents s
  | .setAttnMask mask => Sys2Proof.Machine.execSetAttnMask mask s
  | .reset => Sys2Proof.Machine.execReset s
  | .setMech request => Sys2Proof.Machine.execSetMech request s
  | .setPinMap outputs => Sys2Proof.Machine.execSetPinMap outputs s
  | .defineForm request => Sys2Proof.Machine.execDefineForm request s
  | .readForm slot => Sys2Proof.Machine.execReadForm slot s
  | .selectForm slot => Sys2Proof.Machine.execSelectForm slot s
  | .setTof => Sys2Proof.Machine.execSetTof s
  | .openPass request => Sys2Proof.Machine.execOpenPass request s
  | .image tag offset count data => Sys2Proof.Machine.execImage tag offset count data s
  | .closePass tag => Sys2Proof.Machine.execClosePass tag s
  | .queueAdvance tag distance flags => Sys2Proof.Machine.execQueueAdvance tag distance flags s
  | .cancelEntry tag => Sys2Proof.Machine.execCancelEntry tag s
  | .pause => Sys2Proof.Machine.execPause s
  | .resume => Sys2Proof.Machine.execResume s
  | .abort => Sys2Proof.Machine.execAbort s
  | .clearFault => Sys2Proof.Machine.execClearFault s
  | .home => Sys2Proof.Machine.execHome s
  | .msTick => Sys2Proof.Machine.execMsTick s
  | .coolingTick => Sys2Proof.Machine.execCoolingTick s
  | .windowTimerExpiry => Sys2Proof.Machine.execWindowTimerExpiry s
  | .tearIdleTimerExpiry => Sys2Proof.Machine.execTearIdleTimerExpiry s
  | .stallTimerExpiry => Sys2Proof.Machine.execStallTimerExpiry s
  | .restDetected => Sys2Proof.Machine.execRestDetected s
  | .brakeRampEnd => Sys2Proof.Machine.execBrakeRampEnd s
  | .encoderEdge channel => Sys2Proof.Machine.execEncoderEdge channel s
  | .homeSensorChange covered => Sys2Proof.Machine.execHomeSensorChange covered s
  | .burstSlot => Sys2Proof.Machine.execBurstSlot s
  | .burstEnd => Sys2Proof.Machine.execBurstEnd s
  | .driveFault asserted => Sys2Proof.Machine.execDriveFault asserted s
  | .coverOpen => Sys2Proof.Machine.execCoverOpen s
  | .coverClose => Sys2Proof.Machine.execCoverClose s
  | .paperSnsNoPaper => Sys2Proof.Machine.execPaperSnsNoPaper s
  | .paperSnsPaper => Sys2Proof.Machine.execPaperSnsPaper s
  | .feedUnit => Sys2Proof.Machine.execFeedUnit s
  | .paperMotionComplete => Sys2Proof.Machine.execPaperMotionComplete s
  | .takeUp => Sys2Proof.Machine.execTakeUp s
  | .prep => Sys2Proof.Machine.execPrep s
  | .masking => Sys2Proof.Machine.execMasking s
  | .heatCheck => Sys2Proof.Machine.execHeatCheck s
  | .position => Sys2Proof.Machine.execPosition s
  | .sweepOrder => Sys2Proof.Machine.execSweepOrder s
  | .resumeSuspended => Sys2Proof.Machine.execResumeSuspended s
  | .advanceOrder => Sys2Proof.Machine.execAdvanceOrder s
  | .advanceEntryOrder => Sys2Proof.Machine.execAdvanceEntryOrder s
  | .lookAheadPlan => Sys2Proof.Machine.execLookAheadPlan s
  | .entryAborted => Sys2Proof.Machine.execEntryAborted s
  | .byteReceived byte => Sys2Proof.Machine.execByteReceived byte s

end Sys2Proof.Machine
end

