-- ==== Sys2Proof/Safety.lean ====
section
/-! DEFINITION. What a sound state of the PMC-24 is: the bounds and disciplines the spec says hold at every moment, each as
a test on the state; and when a request is dispatched. -/

namespace Sys2Proof.Machine

/-! ## Link Port -/

/-- A valid frame completed now would be dispatched: no reset is held or pending and the reply FIFO has room (spec/09
R187, R188, R191). -/
def linkOpen (s : State) : Bool :=
  !s.pins.resetLow && !s.link.resetPending && decide (s.link.fifo.length < Config.fifoCapacity)

/-- The request-kind table (spec/09 section 9.5): the kind byte of each request; no other command has one. -/
def requestKind : Instr → Option Byte
  | .identify => some 0x01#8
  | .getStatus => some 0x02#8
  | .readEvents => some 0x03#8
  | .setAttnMask _ => some 0x04#8
  | .reset => some 0x05#8
  | .setMech _ => some 0x10#8
  | .setPinMap _ => some 0x11#8
  | .defineForm _ => some 0x12#8
  | .readForm _ => some 0x13#8
  | .selectForm _ => some 0x14#8
  | .setTof => some 0x15#8
  | .openPass _ => some 0x20#8
  | .image _ _ _ _ => some 0x21#8
  | .closePass _ => some 0x22#8
  | .queueAdvance _ _ _ => some 0x23#8
  | .cancelEntry _ => some 0x24#8
  | .pause => some 0x30#8
  | .resume => some 0x31#8
  | .abort => some 0x32#8
  | .clearFault => some 0x33#8
  | .home => some 0x34#8
  | _ => none

/-- The state once the reply to a request of this kind has joined the FIFO: the result code and the reply data behind it
(spec/09 R189). -/
def replied (kind code : Byte) (data : List Byte) (s : State) : State :=
  queueReply (frameOf (kind ||| 0x80#8) (code :: data)) s

/-- The low and the high byte of a two-byte field (spec/09 R193). -/
def halfBytes (h : Half) : List Byte := [h.setWidth 8, (h >>> 8).setWidth 8]

/-- The payload of each request, byte by byte, as the layouts of spec/09 R195 to R197 give it. -/
def requestPayload : Instr → List Byte
  | .setAttnMask m => [m.setWidth 8, (m >>> 8).setWidth 8, (m >>> 16).setWidth 8, (m >>> 24).setWidth 8]
  | .setMech r =>
    halfBytes r.origin ++ [r.lead0, r.lead1, r.lead2, r.lead3, r.phaseCount] ++ r.groupMap ++ [r.window]
  | .setPinMap outputs => outputs
  | .defineForm r =>
    [r.slot, r.path] ++ halfBytes r.length ++ halfBytes r.top ++ halfBytes r.skip
      ++ [r.skipOn, r.copies, r.cap, r.bidir] ++ halfBytes r.idle ++ halfBytes r.offset ++ [r.bandCount] ++ r.bandData
  | .readForm slot => [slot]
  | .selectForm slot => [slot]
  | .openPass r =>
    [r.tag, r.density] ++ halfBytes r.start ++ halfBytes r.span ++ [r.pref] ++ halfBytes r.distance ++ [r.flags]
  | .image tag offset count data => [tag] ++ halfBytes offset ++ [count] ++ data
  | .closePass tag => [tag]
  | .queueAdvance tag distance flags => [tag] ++ halfBytes distance ++ [flags]
  | .cancelEntry tag => [tag]
  | _ => []

/-- The reply FIFO holds 0..2 replies (spec/09 R186). -/
def fifoSound (s : State) : Bool := decide (s.link.fifo.length ≤ Config.fifoCapacity)

/-- The receive assembler's buffer and length agree with its state, and the byte-gap timer runs exactly inside a frame
(spec/09 R179, R181, R182). -/
def assemblerSound (s : State) : Bool :=
  match s.link.asm with
  | .hunt => s.link.buffer.isEmpty && s.link.frameLen.isNone && s.time.byteGap.isNone
  | .length => s.link.buffer.length == 1 && s.link.frameLen.isNone && s.time.byteGap.isSome
  | .body =>
    s.link.frameLen.any (fun n => decide (1 ≤ n) && decide (n ≤ 252) && decide (2 ≤ s.link.buffer.length)
      && decide (s.link.buffer.length < n + 2)) && s.time.byteGap.isSome
  | .check =>
    s.link.frameLen.any (fun n => decide (1 ≤ n) && decide (n ≤ 252) && decide (n + 2 ≤ s.link.buffer.length)
      && decide (s.link.buffer.length < n + 4)) && s.time.byteGap.isSome

/-! ## Print Queue, Image Pool and completion list -/

/-- The completion list holds 0..8 records (spec/08 R168). -/
def recordsSound (s : State) : Bool := decide (s.events.records.length ≤ Config.recordCapacity)

/-- The queue holds at most 8 entries, their tags are pairwise distinct, and at most one is OPEN (spec/02 R20). -/
def queueSound (s : State) : Bool :=
  decide (s.queue.length ≤ Config.queueCapacity) && decide (s.queue.map Entry.tag).Nodup
    && decide (s.queue.countP (fun e => e.state == .opened) ≤ 1)

/-- Only the head entry is ever ACTIVE, SUSPENDED, HALTED or ADVANCING (spec/02 R24). -/
def headOnlySound (s : State) : Bool := s.queue.tail.all (fun e => !e.state.started)

/-- A pass has 51 block slots, and its columns lie within the density's limit (spec/01 R1, spec/02 R21). -/
def passSound (p : Pass) : Bool :=
  p.slots.length == Config.blockSlots && decide (1 ≤ p.span) && decide (p.start + p.span ≤ p.density.limit)

/-- The blocks that the queued entries hold, in the order of the queue and of each block list. -/
def heldBlocks (q : List Entry) : List Nat := (q.flatMap Entry.slots).filterMap id

/-- The pool's cells are in canonical form, every pass is sound, no block is held twice, and each of the blocks 0..127 is
either free or held, not both (spec/02 R38). -/
def poolSound (s : State) : Bool :=
  s.pool.wf && s.queue.all (fun e => e.pass.all passSound) && decide (heldBlocks s.queue).Nodup
    && (heldBlocks s.queue).all (fun b => decide (b < Config.poolBlocks))
    && (List.range Config.poolBlocks).all (fun b => s.pool.free.getLsbD b == !(heldBlocks s.queue).contains b)

/-! ## The account of the dots (spec/02 R23, spec/03 R69, spec/10 R200) -/

/-- The marks of a column: no dot is both fired and lost, and only a dot of the column that lies in no suppressed row bears
a mark. -/
def Column.marksSound (sup : Rows) (c : Column) : Bool :=
  (c.fired &&& c.lost) == 0#24 && ((c.fired ||| c.lost) &&& (~~~c.dots ||| sup)) == 0#24

/-- The sum over a pass's columns of the rows in a set each column has. -/
def sumRows (pool : Pool) (p : Pass) (f : Column → Rows) : Nat :=
  ((List.range p.span).map (fun c => rowCount (f (passColumn pool p c)))).sum

/-- A pass's counters are the counts of its dots: fired of the fired marks, lost of the lost marks, suppressed of the dots
in suppressed rows; before masking no dot bears a mark and all three are 0. -/
def passCounted (pool : Pool) (p : Pass) : Bool :=
  (match p.suppressed with
    | none => (List.range p.span).all (fun c =>
        (passColumn pool p c).fired == 0#24 && (passColumn pool p c).lost == 0#24) && p.dotsSuppressed == 0
    | some sup => (List.range p.span).all (fun c => (passColumn pool p c).marksSound sup)
        && p.dotsSuppressed == sumRows pool p (fun c => c.dots &&& sup))
  && p.dotsFired == sumRows pool p Column.fired && p.dotsLost == sumRows pool p Column.lost

/-- Every queued print entry's counters are right, and an entry still OPEN has no masks. -/
def entriesCounted (s : State) : Bool :=
  s.queue.all (fun e => e.pass.all (fun p =>
    passCounted s.pool p && (e.state != .opened || p.suppressed.isNone)))

/-- The bursts that still owe dots to an entry, each with its pairs to come: the running one, then the pending ones. -/
def owedBursts (s : State) : List (Burst × List (Nat × Nat)) :=
  ((s.driver.running.toList.map (fun r => (r.burst, (r.burst.groups.drop r.next).flatten)))
    ++ s.driver.pendA.toList.map (fun b => (b, b.groups.flatten))
    ++ s.driver.pendB.toList.map (fun b => (b, b.groups.flatten))).filter
      (fun x => !x.1.orphan && !x.2.isEmpty)

/-- A started print entry is the head, and the rows of these pairs, each once, are outstanding for the burst's channel in its
column. -/
def burstOwed (s : State) (x : Burst × List (Nat × Nat)) : Bool :=
  s.queue.head?.any (fun e => e.state.started && e.pass.any (fun p =>
    decide (x.2.map Prod.fst).Nodup
      && x.2.all (fun y => (chanOutstanding s.pool p x.1.chan x.1.column).getLsbD y.1)))

/-- Each pending place holds a burst of its channel; every owed dot is outstanding at the head, and no two owing bursts are
of one column of one channel. -/
def burstsSound (s : State) : Bool :=
  s.driver.pendA.all (fun b => b.chan == .a) && s.driver.pendB.all (fun b => b.chan == .b)
    && (owedBursts s).all (burstOwed s)
    && decide ((owedBursts s).Pairwise (fun x y => (x.1.chan, x.1.column) ≠ (y.1.chan, y.1.column)))

/-- The columns a channel has still to match come once each, and none of them is that of a burst of the channel that still
owes dots. -/
def channelSound (s : State) (ch : Chan) (c : Channel) : Bool :=
  decide ((c.list.drop c.next).map Elem.column).Nodup
    && (owedBursts s).all (fun x => x.1.chan != ch || !((c.list.drop c.next).map Elem.column).contains x.1.column)

/-- The lists of a plan name each column once. -/
def Plan.listsSound (p : Plan) : Bool :=
  decide (p.listA.map Elem.column).Nodup && decide (p.listB.map Elem.column).Nodup

/-- The head entry's advance is in flight and no ABORT has removed the entry. -/
def advancingHead (s : State) : Bool :=
  s.paper.motion.any (fun m => (match m.purpose with | .entryAdvance _ => true | _ => false) && !m.aborted)

/-- What the runner, the carriage and the paper keep to for the account to hold: a run-up and a sweep belong to a started
head without a further plan and without its advance in flight; a plan for the head is held only while no burst owes a dot; and
while the head's advance is in flight the head is past PREP and has no dot outstanding (spec/07 R147). -/
def workSound (s : State) : Bool :=
  (!(s.carriage.state == .runup || s.carriage.state == .sweep)
      || (s.queue.head?.any (fun e => e.state.started) && s.runner.headPlan.isNone && !advancingHead s
        && channelSound s .a s.carriage.chanA && channelSound s .b s.carriage.chanB))
    && s.runner.headPlan.all (fun p => p.listsSound && (owedBursts s).isEmpty)
    && s.runner.lookAhead.all Plan.listsSound
    && (!advancingHead s
      || (s.runner.phase != .prep && s.queue.head?.any (fun e =>
        e.state.started && e.pass.all (fun p => !anyOutstanding s.pool p))))

/-- The account of the dots: every dot of a queued entry is fired or lost at most once and counted once, and what the driver
still owes, and the lists and plans it will owe from, can never fire or lose a dot twice. -/
def dotsSound (s : State) : Bool := entriesCounted s && burstsSound s && workSound s

/-! ## Heat, carriage and paper -/

/-- 24 heat values, each within 0..16383 (spec/04 R86). -/
def heatSound (s : State) : Bool := decide (s.heat.length = 24) && s.heat.all (fun h => decide (h ≤ Config.heatMax))

/-- A valid carriage position lies within 0..21599 (spec/03 R44). -/
def positionSound (s : State) : Bool := s.carriage.pos.all (fun p => decide (p ≤ Config.travelEnd))

/-- The table of R45 (spec/03): the position's validity, the drive, and what the carriage is doing agree with its state. -/
def carriageSound (s : State) : Bool :=
  let c := s.carriage
  match c.state with
  | .unhomed =>
    c.pos.isNone && c.drive == .off && c.homing.isNone && c.target.isNone && c.plan.isNone && c.brake.isNone
  | .idle =>
    c.pos.isSome && c.drive == .off && c.homing.isNone && c.target.isNone && c.plan.isNone && c.brake.isNone
  | .homing =>
    c.homing.any (fun h => c.pos.isSome == (h.stage == .seekStop || h.stage == .park)) && c.drive != .off
      && c.target.isNone && c.plan.isNone && c.brake.isNone
  | .approach =>
    c.pos.isSome && c.drive != .off && c.homing.isNone && c.target.isSome && c.plan.isNone && c.brake.isNone
  | .runup =>
    c.pos.isSome && c.drive == .on && c.homing.isNone && c.target.isNone && c.plan.isSome && c.brake.isNone
  | .sweep =>
    c.pos.isSome && c.drive == .on && c.homing.isNone && c.target.isNone && c.plan.isSome && c.brake.isNone
  | .braking => c.drive != .off && c.homing.isNone && c.target.isNone && c.plan.isNone && c.brake.isSome

/-- A motion in flight has moved no more than its distance, and a ramp-down moves no more than is left of it
(spec/05 R96, R107). -/
def Motion.sound (m : Motion) : Bool :=
  decide (m.moved ≤ m.distance.natAbs)
    && m.stop.all (fun t => decide (m.moved + t.ramp ≤ m.distance.natAbs) && decide (t.ramp ≤ Config.rampUnits))

/-- The paper state agrees with the motion in flight and the park; OUT has PE at 0; PE stays within 0..540 and is absent
while the sensor sees paper, outside a reset held by RESET_N; a stays within 0..2; during such a reset the queue is empty
and the paper stands without a park (spec/05 R94, R97, R102, R103, R106, R122, spec/09 R191). -/
def paperSound (s : State) : Bool :=
  (match s.paper.state with
    | .idle => s.paper.motion.isNone && s.paper.park.isNone
    | .advancing => s.paper.motion.any (fun m => decide (0 < m.distance) && m.sound) && s.paper.park.isNone
    | .retracting => s.paper.motion.any (fun m => decide (m.distance < 0) && m.sound) && s.paper.park.isNone
    | .tearParked => s.paper.motion.isNone && s.paper.park.isSome
    | .out => s.paper.motion.isNone && s.paper.park.isNone && s.paper.pe == some 0)
  && s.paper.pe.all (fun n => decide (n ≤ Config.paperEndSpan))
  && (s.pins.resetLow || !s.pins.paperSeen || s.paper.pe.isNone)
  && decide (s.paper.a ≤ 2)
  && (!s.pins.resetLow || (s.queue.isEmpty && s.paper.motion.isNone && s.paper.park.isNone))

/-! ## Configuration -/

/-- The ranges of the mechanical configuration (spec/01 R3 and the table of section 1.2). -/
def mechSound (s : State) : Bool :=
  let m := s.mech
  decide (360 ≤ m.origin) && decide (m.origin ≤ 1500) && m.leads.length == 4
    && m.leads.all (fun l => decide (l ≤ 120)) && decide (1 ≤ m.phaseCount) && decide (m.phaseCount ≤ 4)
    && m.groupMap.length == 24 && m.groupMap.all (fun g => decide (g < m.phaseCount)) && decide (m.window ≤ 250)

/-- The pin map is a permutation of 0..23 (spec/04 R84). -/
def pinMapSound (s : State) : Bool := isPinMap s.driver.pinMap

/-- A band lies on the form (spec/06 R124). -/
def Band.sound (len : Nat) (b : Band) : Bool :=
  decide (b.top < len) && decide (1 ≤ b.height) && decide (b.top + b.height ≤ len)

/-- The values a held profile may have (spec/06 R124, R128). -/
def Profile.sound (p : Profile) : Bool :=
  decide (360 ≤ p.length) && decide (p.length ≤ 8640) && decide (p.top ≤ 720) && decide (p.top < p.length)
    && decide (p.skip ≤ 720) && decide (1 ≤ p.copies) && decide (p.copies ≤ 6) && decide (p.cap ≤ 3)
    && decide (p.bands.length ≤ 4) && p.bands.all (Band.sound p.length)
    && (p.tear.isSome == (p.path == .tractor))
    && p.tear.all (fun t => decide (t.idle ≤ 300) && decide (t.offset ≤ 720))
    && (!p.skipOn || decide (48 ≤ (p.length : Int) - p.skip - p.top))

/-- 16 slots, the active one holding a profile, every held profile sound (spec/06 R123, R124), and the form offset within
the active form (spec/05 R94). -/
def formSound (s : State) : Bool :=
  decide (s.forms.slots.length = Config.formSlots) && (s.forms.slots.getD s.forms.active none).isSome
    && s.forms.slots.all (fun x => x.all Profile.sound) && decide (s.paper.y < (activeProfile s).length)

/-- The attention mask has bits only where R195 (spec/09) names an event or a condition. -/
def maskSound (s : State) : Bool := (s.events.mask &&& ~~~Config.maskNamed) == 0#32

/-- A step that runs: it answers a next state. -/
def Runs (s : State) : Prop := ∃ t, step s = .next t

end Sys2Proof.Machine
end

