-- ==== Sys2Proof/WellFormed.lean ====
section
/-! DEFINITION. Which commands can be spelled on the line: the lengths of the list operands, and the length byte that
makes a length fault. -/

namespace Sys2Proof

/-- A command whose operands the spec's layouts can carry. A SET_MECH carries 24 group bytes and a SET_PIN_MAP 24
outputs (spec/09 R195); a payload is at most 251 bytes (R196), of which DEFINE_FORM's fields take 17 and IMAGE's 4;
a length fault is a length byte of 0 or of 253..255 (R180). -/
def Instr.wf : Instr → Bool
  | .lengthFault b => b.toNat == 0 || decide (253 ≤ b.toNat)
  | .setMech r => r.groupMap.length == 24
  | .setPinMap m => m.length == 24
  | .defineForm r => decide (r.bandData.length ≤ 234)
  | .image _ _ _ data => decide (data.length ≤ 247)
  | .powerOnReset _ => true
  | .resetNAssert => true
  | .resetNRelease _ _ => true
  | .warmReset _ _ => true
  | .frameComplete _ => true
  | .lineFault => true
  | .byteGapTimerExpiry => true
  | .replySent => true
  | .identify => true
  | .getStatus => true
  | .readEvents => true
  | .setAttnMask _ => true
  | .reset => true
  | .readForm _ => true
  | .selectForm _ => true
  | .setTof => true
  | .openPass _ => true
  | .closePass _ => true
  | .queueAdvance _ _ _ => true
  | .cancelEntry _ => true
  | .pause => true
  | .resume => true
  | .abort => true
  | .clearFault => true
  | .home => true
  | .msTick => true
  | .coolingTick => true
  | .windowTimerExpiry => true
  | .tearIdleTimerExpiry => true
  | .stallTimerExpiry => true
  | .restDetected => true
  | .brakeRampEnd => true
  | .encoderEdge _ => true
  | .homeSensorChange _ => true
  | .burstSlot => true
  | .burstEnd => true
  | .driveFault _ => true
  | .coverOpen => true
  | .coverClose => true
  | .paperSnsNoPaper => true
  | .paperSnsPaper => true
  | .feedUnit => true
  | .paperMotionComplete => true
  | .takeUp => true
  | .prep => true
  | .masking => true
  | .heatCheck => true
  | .position => true
  | .sweepOrder => true
  | .resumeSuspended => true
  | .advanceOrder => true
  | .advanceEntryOrder => true
  | .lookAheadPlan => true
  | .entryAborted => true
  | .byteReceived _ => true

end Sys2Proof
end

