-- ==== Sys2Proof/Certificates/Slice0/Obligations.lean ====
section
/-! DEFINITION. The statements for the provers. Each is about every state that meets its hypotheses, whether or not a run
reaches it. -/

open Sys2Proof Sys2Proof.Machine

/-! ## The step -/

/-- A step carries out the command at the front of the queue on the state with the queue's rest; with nothing waiting the
block idles, which is the model's choice (log entry 2). -/
def Obligations.StepRunsFrontCommand : Prop :=
  (∀ (c : Instr) (rest : List Instr) (s : State), s.pending = c :: rest → step s = exec c (s.setPending rest))
  ∧ (∀ s : State, s.pending = [] → step s = .next s)

/-- Every command answers a next state from every state, and leaves the commands behind it as they were.
That no command ends a run is the model's choice for events that cannot happen in the state found (log entry 1). -/
def Obligations.EveryCommandRuns : Prop :=
  ∀ (c : Instr) (s : State), ∃ t, exec c s = .next t ∧ t.pending = s.pending

/-! ## Resets -/

/-- POWER_ON_RESET: every block at the value its chapter gives, the rate sampled from the straps, and the reading of the
paper-end sensor that R121 gives.
The count of matching edges, the pulse length and the two step tallies are the model's own fields and start at 0 (log
entries 14, 15); the pin levels are the command's operands, all but that of
RESET_N, which is high (log entry 3). -/
def Obligations.PowerOnResetValues : Prop :=
  ∀ (l : Levels) (s : State), exec (.powerOnReset l) s = .next
    { link :=
        { asm := .hunt, buffer := [], frameLen := none, fifo := [], resetPending := false,
          rate := match l.strapB, l.strapA with
            | false, false => .r38400
            | false, true => .r115200
            | true, false => .r460800
            | true, true => .r921600 }
      mech :=
        { origin := 1080, leads := [3, 6, 9, 12], phaseCount := 2,
          groupMap := (List.range 24).map (fun p => p % 2), window := 100 }
      queue := []
      pool := { free := BitVec.allOnes 128, cells := [] }
      runner :=
        { phase := .noPhase, point := .skipCheck, suspend := none, headPlan := none, lookAhead := none,
          pause := false, fault := none, abortPending := false, homingOwed := false, firstOrderDue := false }
      carriage :=
        { state := .unhomed, pos := none, drive := .off, homing := none, target := none, plan := none,
          chanA := { list := [], next := 0, armed := false }, chanB := { list := [], next := 0, armed := false },
          brake := none, resumeDue := none }
      driver := { pinMap := List.range 24, running := none, pendA := none, pendB := none, matchCount := 0 }
      heat := List.replicate 24 4096
      paper :=
        { y := 0, a := 0, pe := if l.paperSeen then none else some 0,
          state := if l.paperSeen then .idle else .out, park := none, motion := none }
      forms :=
        { slots := some { path := .tractor, length := 3960, top := 0, skip := 0, skipOn := false, copies := 1, cap := 3,
                          bidir := true, bands := [], tear := some { idle := 0, offset := 0 } }
            :: List.replicate 15 none
          active := 0 }
      events :=
        { latched := if l.paperSeen then 0#12 else 0x040#12, mask := 0x00300000#32, records := [] }
      time :=
        { ms := 0#32, divider := 0, coolingOwed := 0, window := none, tearIdle := none, stall := none,
          byteGap := none }
      pins :=
        { strapB := l.strapB, strapA := l.strapA, homeCovered := l.homeCovered, paperSeen := l.paperSeen,
          coverOpen := l.coverOpen, driveFault := l.driveFault, encA := l.encA, encB := l.encB, resetLow := false }
      outputs := { pinOut := 0#24, pulse := 0, platen := 0, tractor := 0 }
      pending := s.pending }

/-- RESET_N_ASSERT: a warm reset begins at once. The mechanical configuration, the pin map, the heat, the forms, Y, a, PE,
the millisecond count and the divider are kept, everything else returns to its power-on value, and ATTN_N is high. The
matching-edge count goes back to 0 and the tallies stay, which are the model's (log entries 14, 15).

RESET_N_RELEASE: the reset ends. The straps are sampled, PAPER_SNS is read once as the table of R122 says, PAPER_END is
latched when PE was absent and no paper is seen, and the tear timer, stopped by the reset, starts where it is called
for.
That the tear timer starts as the reset ends rests on log entry 5. -/
def Obligations.ResetPinWarmReset : Prop :=
  (∀ s : State, s.pins.resetLow = false → ∃ t, exec .resetNAssert s = .next t
      ∧ t =
        { s with
          link := { asm := .hunt, buffer := [], frameLen := none, fifo := [], resetPending := false, rate := s.link.rate }
          queue := []
          pool := { free := BitVec.allOnes 128, cells := [] }
          runner := State.reset.runner
          carriage := State.reset.carriage
          driver := { pinMap := s.driver.pinMap, running := none, pendA := none, pendB := none, matchCount := 0 }
          paper :=
            { s.paper with state := if s.paper.state = .out then .out else .idle, park := none, motion := none }
          events := { latched := 0#12, mask := 0x00300000#32, records := [] }
          time := { s.time with window := none, tearIdle := none, stall := none, byteGap := none }
          pins := { s.pins with resetLow := true }
          outputs := { s.outputs with pinOut := 0#24 } }
      ∧ attnN t = true)
  ∧ (∀ (b a : Bool) (s : State), s.pins.resetLow = true → s.time.tearIdle = none →
      ∃ t, exec (.resetNRelease b a) s = .next t
        ∧ t.pins = { s.pins with strapB := b, strapA := a, resetLow := false }
        ∧ t.link = { s.link with rate := rateOf b a }
        ∧ t.paper =
            (if s.pins.paperSeen then { s.paper with pe := none, state := .idle }
            else if s.paper.pe = none ∨ s.paper.pe = some 0 then { s.paper with pe := some 0, state := .out }
            else { s.paper with state := .idle })
        ∧ t.events =
            (if s.pins.paperSeen = false ∧ s.paper.pe = none then
              { s.events with latched := s.events.latched ||| 0x040#12 }
            else s.events)
        ∧ t.time =
            { s.time with tearIdle := if tearReady t then some (100 * tearIdleOf (activeProfile s)) else none }
        ∧ t = { s with pins := t.pins, link := t.link, paper := t.paper, events := t.events, time := t.time })

/-! ## Link Port -/

/-- RESET is answered OK and from then on a reset is pending; REPLY_SENT removes the oldest reply; the departure of the
RESET reply is the warm reset itself, with the straps as they stand (log entry 11).

WARM_RESET: the RESET reply has left TXD, so every block takes its warm-reset values and the reset ends in the same
act.

TXD, one level a bit time, carries the oldest reply: each byte as a low start bit, its eight bits from the least significant
one and a high stop bit, the bytes back to back; it is high after them, with no reply to send, and while RESET_N is low. The
rate is the one the straps select. That TXD is counted in whole bit times is the model's choice (log entry 28).
That the straps are read as they stand at REPLY_SENT is the model's choice (log entry 11), as are the count of
matching edges and the tallies (log entries 14, 15). -/
def Obligations.ResetRequestWarmReset : Prop :=
  ((∀ s : State, linkOpen s = true →
      exec .reset s = .next (replied 0x05#8 0x00#8 [] (s.setLink { s.link with resetPending := true })))
    ∧ (∀ s : State, s.link.resetPending = false ∨ s.link.fifo.length ≠ 1 →
        exec .replySent s = .next (s.setLink { s.link with fifo := s.link.fifo.tail }))
    ∧ (∀ s : State, s.link.resetPending = true → s.link.fifo.length = 1 →
        exec .replySent s = exec (.warmReset s.pins.strapB s.pins.strapA) s))
  ∧ (∀ (b a : Bool) (s : State), s.link.resetPending = true → s.link.fifo.length = 1 →
      ∃ t, exec (.warmReset b a) s = .next t
        ∧ t.queue = [] ∧ t.pool = State.reset.pool ∧ t.runner = State.reset.runner
        ∧ t.carriage = State.reset.carriage
        ∧ t.driver = { pinMap := s.driver.pinMap, running := none, pendA := none, pendB := none, matchCount := 0 }
        ∧ t.mech = s.mech ∧ t.heat = s.heat ∧ t.forms = s.forms
        ∧ t.link =
            { asm := .hunt, buffer := [], frameLen := none, fifo := [], resetPending := false, rate := rateOf b a }
        ∧ t.paper =
            { y := s.paper.y, a := s.paper.a
              pe := if s.pins.paperSeen then none else some (s.paper.pe.getD 0)
              state := if s.pins.paperSeen ∨ 0 < s.paper.pe.getD 0 then .idle else .out
              park := none, motion := none }
        ∧ t.events =
            { latched := if s.pins.paperSeen = false ∧ s.paper.pe = none then 0x040#12 else 0#12
              mask := 0x00300000#32, records := [] }
        ∧ t.time =
            { s.time with
              window := none, stall := none, byteGap := none
              tearIdle := if tearReady t then some (100 * tearIdleOf (activeProfile s)) else none }
        ∧ t.pins = { s.pins with strapB := b, strapA := a }
        ∧ t.outputs = { s.outputs with pinOut := 0#24 } ∧ t.pending = s.pending)
  ∧ (∀ s : State,
      (s.pins.resetLow = true ∨ s.link.fifo = [] → ∀ k, txd s k = true)
      ∧ (s.pins.resetLow = false → ∀ frame rest, s.link.fifo = frame :: rest →
        (∀ n b, frame[n]? = some b →
          txd s (10 * n) = false ∧ (∀ i, i < 8 → txd s (10 * n + 1 + i) = b.getLsbD i) ∧ txd s (10 * n + 9) = true)
        ∧ ∀ k, 10 * frame.length ≤ k → txd s k = true))
  ∧ (∀ b a : Bool, (rateOf b a).bitsPerSecond =
      match b, a with
      | false, false => 38400
      | false, true => 115200
      | true, false => 460800
      | true, true => 921600)

/-- BYTE_RECEIVED, by the assembler state it finds (the table of R179): the byte is discarded, or stored with the byte-gap
timer restarted for 6 ms; a bad length byte is LENGTH_FAULT and the second CRC byte is FRAME_COMPLETE; while RESET_N is
low it is ignored.

On RXD, one level a bit time, a high level between bytes gives nothing; a low start bit, the eight bits of a byte from the
least significant one and a high stop bit are BYTE_RECEIVED of that byte; with the stop bit low, and in a break, they are one
LINE_FAULT, and nothing more is received until RXD has been high. That RXD is read in whole bit times is the model's choice
(log entry 28). -/
def Obligations.ByteReceivedByAssemblerState : Prop :=
  (∀ rest, rxdCommands .waiting [] = [] ∧ rxdCommands .waiting (true :: rest) = rxdCommands .waiting rest
    ∧ ∀ b : Byte, ∃ start, start = [false, b.getLsbD 0, b.getLsbD 1, b.getLsbD 2, b.getLsbD 3, b.getLsbD 4,
          b.getLsbD 5, b.getLsbD 6, b.getLsbD 7]
        ∧ rxdCommands .waiting (start ++ true :: rest) = .byteReceived b :: rxdCommands .waiting rest
        ∧ ∀ n, rxdCommands .waiting (start ++ List.replicate (n + 1) false ++ true :: rest)
            = .lineFault :: rxdCommands .waiting rest)
  ∧ ∀ (b : Byte) (s : State),
    (s.pins.resetLow = true → exec (.byteReceived b) s = .next s)
    ∧ (s.pins.resetLow = false →
      (s.link.asm = .hunt → b ≠ 0xE7#8 → exec (.byteReceived b) s = .next s)
      ∧ (s.link.asm = .hunt → b = 0xE7#8 → exec (.byteReceived b) s = .next
          { s with
            link := { s.link with buffer := s.link.buffer ++ [b], asm := .length }
            time := { s.time with byteGap := some 6 } })
      ∧ (s.link.asm = .length → 1 ≤ b.toNat → b.toNat ≤ 252 → exec (.byteReceived b) s = .next
          { s with
            link := { s.link with buffer := s.link.buffer ++ [b], asm := .body, frameLen := some b.toNat }
            time := { s.time with byteGap := some 6 } })
      ∧ (s.link.asm = .length → b.toNat = 0 ∨ 253 ≤ b.toNat →
          exec (.byteReceived b) s = exec (.lengthFault b) s)
      ∧ (∀ n, s.link.frameLen = some n →
          (s.link.asm = .body → s.link.buffer.length + 1 < n + 2 → exec (.byteReceived b) s = .next
            { s with
              link := { s.link with buffer := s.link.buffer ++ [b] }
              time := { s.time with byteGap := some 6 } })
          ∧ (s.link.asm = .body → s.link.buffer.length + 1 = n + 2 → exec (.byteReceived b) s = .next
            { s with
              link := { s.link with buffer := s.link.buffer ++ [b], asm := .check }
              time := { s.time with byteGap := some 6 } })
          ∧ (s.link.asm = .check → s.link.buffer.length = n + 2 → exec (.byteReceived b) s = .next
            { s with
              link := { s.link with buffer := s.link.buffer ++ [b] }
              time := { s.time with byteGap := some 6 } })
          ∧ (s.link.asm = .check → s.link.buffer.length = n + 3 →
            exec (.byteReceived b) s = exec (.frameComplete b) s)))

/-- A frame is rejected by LENGTH_FAULT, LINE_FAULT, BYTE_GAP_TIMER_EXPIRY, and FRAME_COMPLETE with a wrong CRC. The
assembler goes back to HUNT with its timer stopped. LINK_ERROR is latched and a FRAME_REJECT with the reason queued when the
FIFO has room; with a full FIFO only LINK_ERROR is latched; while a reset is pending neither happens. -/
def Obligations.RejectedFrames : Prop :=
  ∀ (c : Instr) (reason : Byte) (s : State), s.pins.resetLow = false →
    ((∃ b, c = .lengthFault b ∧ s.link.asm = .length ∧ (b.toNat = 0 ∨ 253 ≤ b.toNat) ∧ reason = 0xE2#8)
      ∨ (c = .lineFault ∧ s.link.asm ≠ .hunt ∧ reason = 0xE3#8)
      ∨ (c = .byteGapTimerExpiry ∧ s.link.asm ≠ .hunt ∧ s.time.byteGap = some 0 ∧ reason = 0xE4#8)
      ∨ (∃ b n, c = .frameComplete b ∧ s.link.asm = .check ∧ s.link.frameLen = some n
          ∧ s.link.buffer.length = n + 3
          ∧ crc ((s.link.buffer.drop 1).take (n + 1)) ≠ half (s.link.buffer.getD (n + 2) 0#8) b
          ∧ reason = 0xE1#8)) →
    ∃ t, t =
        { s with
          link := { s.link with asm := .hunt, buffer := [], frameLen := none }
          time := { s.time with byteGap := none } }
      ∧ (s.link.resetPending = true → exec c s = .next t)
      ∧ (s.link.resetPending = false → 2 ≤ s.link.fifo.length →
          exec c s = .next (t.setEvents { t.events with latched := t.events.latched ||| 0x400#12 }))
      ∧ (s.link.resetPending = false → s.link.fifo.length < 2 →
          exec c s = .next
            ((t.setEvents { t.events with latched := t.events.latched ||| 0x400#12 }).setLink
              { t.link with fifo := t.link.fifo ++ [frameOf 0xFF#8 [reason]] }))

/-- FRAME_COMPLETE of a frame whose carried CRC is the computed one: the assembler goes back to HUNT with its timer stopped
and the request is taken, by its kind and payload. A line fault in HUNT changes nothing.

When it is dispatched, a kind that the request table does not list is answered UNKNOWN_KIND, 19h, and one whose payload
length is fixed, with a payload of another length, BAD_LENGTH, 18h; nothing else changes. -/
def Obligations.ValidFrameIsTaken : Prop :=
  (∀ (b : Byte) (n : Nat) (s : State), s.pins.resetLow = false → s.link.asm = .check →
    s.link.frameLen = some n → s.link.buffer.length = n + 3 →
    crc ((s.link.buffer.drop 1).take (n + 1)) = half (s.link.buffer.getD (n + 2) 0#8) b →
    exec (.frameComplete b) s = .next
      (takeRequest (s.link.buffer.getD 2 0#8)
        (ownerOf (s.link.buffer.getD 2 0#8) ((s.link.buffer.drop 3).take (n - 1)))
        { s with
          link := { s.link with asm := .hunt, buffer := [], frameLen := none }
          time := { s.time with byteGap := none } }))
  ∧ (∀ s : State, s.link.asm = .hunt → exec .lineFault s = .next s)
  ∧ (∀ (b kind : Byte) (n : Nat) (s : State) (fixed : List (Byte × Nat)),
    fixed = [(0x01#8, 0), (0x02#8, 0), (0x03#8, 0), (0x04#8, 4), (0x05#8, 0), (0x10#8, 32), (0x11#8, 24), (0x13#8, 1),
      (0x14#8, 1), (0x15#8, 0), (0x20#8, 10), (0x22#8, 1), (0x23#8, 4), (0x24#8, 1), (0x30#8, 0), (0x31#8, 0),
      (0x32#8, 0), (0x33#8, 0), (0x34#8, 0)] →
    linkOpen s = true → s.link.asm = .check → s.link.frameLen = some n → s.link.buffer.length = n + 3 → 1 ≤ n →
    crc ((s.link.buffer.drop 1).take (n + 1)) = half (s.link.buffer.getD (n + 2) 0#8) b →
    kind = s.link.buffer.getD 2 0#8 →
    ∃ u, u =
        { s with
          link := { s.link with asm := .hunt, buffer := [], frameLen := none }
          time := { s.time with byteGap := none } }
      ∧ (kind ∉ fixed.map Prod.fst → kind ≠ 0x12#8 → kind ≠ 0x21#8 →
          exec (.frameComplete b) s = .next (replied kind 0x19#8 [] u))
      ∧ (∀ length, (kind, length) ∈ fixed → n - 1 ≠ length →
          exec (.frameComplete b) s = .next (replied kind 0x18#8 [] u)))

/-- A request that the Link Port does not dispatch: while RESET_N is low it is lost, while a reset is pending it is
discarded in silence, and with two replies in the FIFO it overruns and latches LINK_ERROR alone.
The request commands stand for a completed valid frame (log entry 10). -/
def Obligations.RequestsNotDispatched : Prop :=
  ∀ (c : Instr) (k : Byte) (s : State), requestKind c = some k →
    (s.pins.resetLow = true → exec c s = .next s)
    ∧ (s.pins.resetLow = false → s.link.resetPending = true → exec c s = .next s)
    ∧ (s.pins.resetLow = false → s.link.resetPending = false → 2 ≤ s.link.fifo.length →
        exec c s = .next (s.setEvents { s.events with latched := s.events.latched ||| 0x400#12 }))

/-- Every request that is dispatched is answered by exactly one reply, of its kind with the top bit set, and a refused one
(a code from 10h upward) carries the result code alone and changes nothing else.

A frame is E7h, the length of kind and payload, the kind, the payload, and the CRC of those from the length on, low byte
first. The CRC register starts at FFFFh; each byte is combined into its upper eight bits and eight shifts follow, each one to
the left, with 1021h combined in when the bit that leaves is set; the text 123456789 gives 29B1h. -/
def Obligations.RequestsAnsweredOnce : Prop :=
  (∀ (c : Instr) (k : Byte) (s : State), requestKind c = some k → linkOpen s = true →
    ∃ t code data, exec c s = .next t
      ∧ t.link.fifo = s.link.fifo ++ [frameOf (k ||| 0x80#8) (code :: data)]
      ∧ (16 ≤ code.toNat → data = [] ∧ t = replied k code [] s))
  ∧ (∀ (kind : Byte) (payload : List Byte), ∃ body check, body = BitVec.ofNat 8 (payload.length + 1) :: kind :: payload
      ∧ check = crc body
      ∧ frameOf kind payload = 0xE7#8 :: body ++ [check.setWidth 8, (check >>> 8).setWidth 8])
  ∧ (∃ shift : BitVec 16 → BitVec 16,
      (∀ r, shift r = if r.getLsbD 15 then (r <<< 1) ^^^ 0x1021#16 else r <<< 1)
      ∧ crc [] = 0xFFFF#16
      ∧ (∀ bytes b, crc (bytes ++ [b]) = shift^[8] (crc bytes ^^^ (b.setWidth 16 <<< 8))))
  ∧ crc [0x31#8, 0x32#8, 0x33#8, 0x34#8, 0x35#8, 0x36#8, 0x37#8, 0x38#8, 0x39#8] = 0x29B1#16

/-- Every request command that can be spelled is what the bytes of its frame do: from HUNT with nothing in the assembler,
the bytes of the frame taken one by one leave exactly what the command leaves.
That a request command does what its frame does rests on log entry 10. -/
def Obligations.FrameBytesAreTheRequest : Prop :=
  ∀ (c : Instr) (k : Byte) (rest : List Instr) (s : State), c.wf = true → requestKind c = some k →
    s.link.asm = .hunt → s.link.buffer = [] → s.link.frameLen = none → s.time.byteGap = none →
    Host.Core.run core (frameOf k (requestPayload c)).length
        (s.setPending ((frameOf k (requestPayload c)).map Instr.byteReceived ++ rest))
      = step (s.setPending (c :: rest))

/-! ## Requests: Event Unit, configuration -/

/-- IDENTIFY, GET_STATUS and READ_EVENTS. IDENTIFY answers the part's constants and GET_STATUS the 28 bytes of the snapshot,
and both change nothing; READ_EVENTS reports and clears the event set, reports the conditions, and removes up to four
records from the head of the list. The bytes of the snapshot are spelled from the state: the flags, the hold reasons and the
conditions bit by bit, every number low byte first, an absent item as 0; and so are the 18 bytes of a completion record.
The hold reason PAPER is shown once PREP has ended (log entry 20); the sweep grade is absent once an ABORT or a HEAD_DRIVE
fault has met a braking (log entry 24). -/
def Obligations.EventUnitReads : Prop :=
  ∀ s : State, linkOpen s = true →
    ∃ (flags holds conds : Byte) (grade : Option Nat) (record : Completion → List Byte),
      (∀ i, flags.getLsbD i = true ↔
        (i = 0 ∧ s.runner.pause = true) ∨ (i = 1 ∧ s.runner.fault ≠ none)
        ∨ (i = 2 ∧ ∃ f, s.runner.fault = some f ∧ f.tag ≠ none)
        ∨ (i = 3 ∧ ∃ f, s.runner.fault = some f ∧ f.pos ≠ none)
        ∨ (i = 4 ∧ s.carriage.pos ≠ none) ∨ (i = 5 ∧ s.paper.pe ≠ none) ∨ (i = 6 ∧ s.queue ≠ [])
        ∨ (i = 7 ∧ grade ≠ none))
      ∧ (∀ i, holds.getLsbD i = true ↔
        (i = 0 ∧ s.runner.pause = true) ∨ (i = 1 ∧ s.runner.fault ≠ none) ∨ (i = 2 ∧ s.pins.coverOpen = true)
        ∨ (i = 3 ∧ (s.runner.phase = .coolWait
            ∨ (s.runner.suspend = some .thermal ∧ 3072 ≤ hmax s
              ∧ ∃ e rest, s.queue = e :: rest ∧ e.state = .suspended)))
        ∨ (i = 4 ∧ s.runner.phase = .prep ∧ s.runner.point = .mask ∧ s.paper.pe = some 0
            ∧ ∃ e rest p, s.queue = e :: rest ∧ e.pass = some p ∧ p.suppressed = none))
      ∧ (∀ i, conds.getLsbD i = true ↔
        (i = 0 ∧ s.paper.state = .out) ∨ (i = 1 ∧ s.pins.coverOpen = true) ∨ (i = 2 ∧ 4096 ≤ hmax s)
        ∨ (i = 3 ∧ s.runner.fault ≠ none) ∨ (i = 4 ∧ s.queue.length ≤ 7 ∧ 52 ≤ s.pool.freeCount)
        ∨ (i = 5 ∧ s.queue = [] ∧ (s.carriage.state = .idle ∨ s.carriage.state = .unhomed)
            ∧ (s.paper.state = .idle ∨ s.paper.state = .out ∨ s.paper.state = .tearParked))
        ∨ (i = 6 ∧ s.runner.pause = true))
      ∧ grade =
        (match s.carriage.state, s.carriage.brake with
          | .runup, _ => s.carriage.plan.map Plan.grade
          | .sweep, _ => s.carriage.plan.map Plan.grade
          | .braking, some (.sweepEnd g) => some g
          | .braking, some (.suspend _ g) => some g
          | _, _ => none)
      ∧ (∀ c, record c =
        [ c.tag,
          BitVec.ofNat 8 ((if c.print then 0 else 1) + (if c.outcome = .aborted then 2 else 0)),
          BitVec.ofNat 8 c.fired, BitVec.ofNat 8 (c.fired / 256), BitVec.ofNat 8 (c.fired / 65536),
          BitVec.ofNat 8 c.suppressed, BitVec.ofNat 8 (c.suppressed / 256), BitVec.ofNat 8 (c.suppressed / 65536),
          BitVec.ofNat 8 c.lost, BitVec.ofNat 8 (c.lost / 256), BitVec.ofNat 8 (c.lost / 65536),
          BitVec.ofNat 8 c.sweeps,
          c.time.setWidth 8, (c.time >>> 8).setWidth 8, (c.time >>> 16).setWidth 8, (c.time >>> 24).setWidth 8,
          BitVec.ofNat 8 c.y, BitVec.ofNat 8 (c.y / 256) ])
      ∧ exec .identify s = .next (replied 0x01#8 0x00#8 [0xC7#8, 0x24#8, 0x01#8, 8#8, 128#8, 16#8] s)
      ∧ exec .getStatus s = .next (replied 0x02#8 0x00#8 (statusBytes s) s)
      ∧ (statusBytes s).length = 28 ∧ (frameOf 0x82#8 (0x00#8 :: statusBytes s)).length = 34
      ∧ statusBytes s =
        [ flags, holds,
          (match s.runner.fault.map FaultRecord.code with
            | none => 0#8 | some .stall => 1#8 | some .homeFail => 2#8 | some .headDrive => 3#8),
          (s.runner.fault.bind FaultRecord.tag).getD 0#8,
          BitVec.ofNat 8 ((s.runner.fault.bind FaultRecord.pos).getD 0),
          BitVec.ofNat 8 ((s.runner.fault.bind FaultRecord.pos).getD 0 / 256),
          BitVec.ofNat 8 s.queue.length, BitVec.ofNat 8 s.pool.freeCount,
          (s.queue.head?.map Entry.tag).getD 0#8,
          (match s.queue.head?.map Entry.state with
            | none => 0#8 | some .opened => 0#8 | some .ready => 1#8 | some .active => 2#8
            | some .suspended => 3#8 | some .halted => 4#8 | some .advancing => 5#8),
          (match s.carriage.state with
            | .unhomed => 0#8 | .homing => 1#8 | .idle => 2#8 | .approach => 3#8 | .runup => 4#8 | .sweep => 5#8
            | .braking => 6#8),
          BitVec.ofNat 8 (s.carriage.pos.getD 0), BitVec.ofNat 8 (s.carriage.pos.getD 0 / 256),
          BitVec.ofNat 8 (grade.getD 0),
          (match s.paper.state with
            | .idle => 0#8 | .advancing => 1#8 | .retracting => 2#8 | .tearParked => 3#8 | .out => 4#8),
          BitVec.ofNat 8 s.paper.y, BitVec.ofNat 8 (s.paper.y / 256),
          BitVec.ofNat 8 (s.paper.pe.getD 0), BitVec.ofNat 8 (s.paper.pe.getD 0 / 256),
          BitVec.ofNat 8 (hmax s), BitVec.ofNat 8 (hmax s / 256),
          BitVec.ofNat 8 s.forms.active, conds, BitVec.ofNat 8 s.events.records.length,
          s.time.ms.setWidth 8, (s.time.ms >>> 8).setWidth 8, (s.time.ms >>> 16).setWidth 8,
          (s.time.ms >>> 24).setWidth 8 ]
      ∧ (∃ data, data =
          [s.events.latched.setWidth 8, (s.events.latched >>> 8).setWidth 8, conds,
              BitVec.ofNat 8 (min 4 s.events.records.length), BitVec.ofNat 8 (s.events.records.length - 4)]
            ++ (s.events.records.take 4).flatMap record
        ∧ exec .readEvents s = .next (replied 0x03#8 0x00#8 data
            (s.setEvents { s.events with latched := 0#12, records := s.events.records.drop 4 }))
        ∧ (4 ≤ s.events.records.length → (frameOf 0x83#8 (0x00#8 :: data)).length = 83))

/-- SET_ATTN_MASK replaces the whole mask, whatever the part is doing; positions that name no event and no condition (bits
12..15 and 23..31) are not read. The mask changes no event and no condition. -/
def Obligations.SetAttnMaskReplacesMask : Prop :=
  ∀ (m : Word) (s : State), linkOpen s = true →
    exec (.setAttnMask m) s
      = .next (replied 0x04#8 0x00#8 [] (s.setEvents { s.events with mask := m &&& 0x007F0FFF#32 }))

/-- ATTN_N is low exactly when an unmasked event is latched or an unmasked condition holds, outside a reset held by RESET_N,
during which it is high. The seven conditions are spelled from the state they view. -/
def Obligations.AttnLineFollowsEventsAndConditions : Prop :=
  ∀ s : State,
    (s.pins.resetLow = true → attnN s = true)
    ∧ (s.pins.resetLow = false →
      (attnN s = false ↔
        (∃ i, i < 12 ∧ s.events.latched.getLsbD i = true ∧ s.events.mask.getLsbD i = false)
        ∨ (s.events.mask.getLsbD 16 = false ∧ s.paper.state = .out)
        ∨ (s.events.mask.getLsbD 17 = false ∧ s.pins.coverOpen = true)
        ∨ (s.events.mask.getLsbD 18 = false ∧ 4096 ≤ hmax s)
        ∨ (s.events.mask.getLsbD 19 = false ∧ s.runner.fault ≠ none)
        ∨ (s.events.mask.getLsbD 20 = false ∧ s.queue.length ≤ 7 ∧ 52 ≤ s.pool.freeCount)
        ∨ (s.events.mask.getLsbD 21 = false ∧ s.queue = []
            ∧ (s.carriage.state = .idle ∨ s.carriage.state = .unhomed)
            ∧ (s.paper.state = .idle ∨ s.paper.state = .out ∨ s.paper.state = .tearParked))
        ∨ (s.events.mask.getLsbD 22 = false ∧ s.runner.pause = true)))

/-- SET_MECH and SET_PIN_MAP. While an entry is past READY, a look-ahead plan exists or the carriage is not at rest, both
are answered BUSY. Otherwise a SET_MECH with a field out of range is answered RANGE, one with every field in range replaces
all five fields, a pin map that is no permutation of 0..23 is answered BAD_MAP, and a permutation replaces the map. A
refused one changes nothing. -/
def Obligations.ConfigurationRequests : Prop :=
  ∀ (r : MechRequest) (outs : List Byte) (s : State), linkOpen s = true →
    r.groupMap.length = 24 → outs.length = 24 →
    ∃ busy fits permutes : Prop,
      (busy ↔ (∃ e ∈ s.queue, e.state ≠ .opened ∧ e.state ≠ .ready) ∨ s.runner.lookAhead ≠ none
        ∨ (s.carriage.state ≠ .idle ∧ s.carriage.state ≠ .unhomed))
      ∧ (fits ↔ 360 ≤ r.origin.toNat ∧ r.origin.toNat ≤ 1500 ∧ r.lead0.toNat ≤ 120 ∧ r.lead1.toNat ≤ 120
        ∧ r.lead2.toNat ≤ 120 ∧ r.lead3.toNat ≤ 120 ∧ 1 ≤ r.phaseCount.toNat ∧ r.phaseCount.toNat ≤ 4
        ∧ (∀ g ∈ r.groupMap, g.toNat < r.phaseCount.toNat) ∧ r.window.toNat ≤ 250)
      ∧ (permutes ↔ (∀ x ∈ outs, x.toNat < 24) ∧ outs.Nodup)
      ∧ (busy → exec (.setMech r) s = .next (replied 0x10#8 0x10#8 [] s)
          ∧ exec (.setPinMap outs) s = .next (replied 0x11#8 0x10#8 [] s))
      ∧ (¬busy → ¬fits → exec (.setMech r) s = .next (replied 0x10#8 0x11#8 [] s))
      ∧ (¬busy → fits → exec (.setMech r) s = .next (replied 0x10#8 0x00#8 []
          (s.setMech
            { origin := r.origin.toNat
              leads := [r.lead0.toNat, r.lead1.toNat, r.lead2.toNat, r.lead3.toNat]
              phaseCount := r.phaseCount.toNat
              groupMap := r.groupMap.map BitVec.toNat
              window := r.window.toNat })))
      ∧ (¬busy → ¬permutes → exec (.setPinMap outs) s = .next (replied 0x11#8 0x17#8 [] s))
      ∧ (¬busy → permutes → exec (.setPinMap outs) s = .next (replied 0x11#8 0x00#8 []
          (s.setDriver { s.driver with pinMap := outs.map BitVec.toNat })))

/-! ## Requests: Form Table -/

/-- DEFINE_FORM is judged in the order of R129: BAD_LENGTH, RANGE for the slot, BUSY, RANGE for the codes and the band count,
RANGE for a skip check that the clamped values fail.

A DEFINE_FORM that passes the checks writes the slot with the values that the clamps of R125 to R127 leave, answers
OK_CLAMPED exactly when a clamp changed a value, and leaves every other slot; of the active slot it also reduces Y modulo the
new length and starts the tear timer afresh where it is called for, keeping a, PE, any park and any motion. -/
def Obligations.DefineFormJudgedAndHeld : Prop :=
  (∀ (r : FormRequest) (s : State), linkOpen s = true →
      ∃ lengthOk slotOk free codesOk : Prop,
        (lengthOk ↔ r.bandData.length = 4 * r.bandCount.toNat)
        ∧ (slotOk ↔ r.slot.toNat ≤ 15)
        ∧ (free ↔ r.slot.toNat ≠ s.forms.active ∨ s.queue = [])
        ∧ (codesOk ↔ r.path.toNat ≤ 1 ∧ r.skipOn.toNat ≤ 1 ∧ r.bidir.toNat ≤ 1 ∧ r.bandCount.toNat ≤ 4)
        ∧ (¬lengthOk → exec (.defineForm r) s = .next (replied 0x12#8 0x18#8 [] s))
        ∧ (lengthOk → ¬slotOk → exec (.defineForm r) s = .next (replied 0x12#8 0x11#8 [] s))
        ∧ (lengthOk → slotOk → ¬free → exec (.defineForm r) s = .next (replied 0x12#8 0x10#8 [] s))
        ∧ (lengthOk → slotOk → free → ¬codesOk → exec (.defineForm r) s = .next (replied 0x12#8 0x11#8 [] s))
        ∧ (lengthOk → slotOk → free → codesOk → r.skipOn = 1#8 →
            (min 8640 (max 360 r.length.toNat) : Int) - (min 720 r.skip.toNat : Int)
                - (min (min 720 r.top.toNat) (min 8640 (max 360 r.length.toNat) - 1) : Nat) < 48 →
            exec (.defineForm r) s = .next (replied 0x12#8 0x11#8 [] s)))
  ∧ (∀ (r : FormRequest) (s : State), linkOpen s = true →
      r.bandData.length = 4 * r.bandCount.toNat → r.slot.toNat ≤ 15 →
      (r.slot.toNat = s.forms.active → s.queue = []) →
      r.path.toNat ≤ 1 → r.skipOn.toNat ≤ 1 → r.bidir.toNat ≤ 1 → r.bandCount.toNat ≤ 4 →
      ∃ p : Profile,
        p.path = (if r.path = 0#8 then .tractor else .friction)
        ∧ p.length = min 8640 (max 360 r.length.toNat)
        ∧ p.top = min (min 720 r.top.toNat) (p.length - 1)
        ∧ p.skip = min 720 r.skip.toNat
        ∧ p.skipOn = (r.skipOn == 1#8)
        ∧ p.copies = (if r.copies.toNat % 16 = 0 then 1 else min 6 (r.copies.toNat % 16))
        ∧ p.cap = min 3 r.cap.toNat
        ∧ p.bidir = (r.bidir == 1#8)
        ∧ p.bands = (bandsOf r.bandData).map (fun b =>
            { top := min b.top (p.length - 1)
              height := min (max 1 b.height) (p.length - min b.top (p.length - 1)) })
        ∧ p.tear = (if r.path = 0#8 then some { idle := min 300 r.idle.toNat, offset := min 720 r.offset.toNat } else none)
        ∧ (p.skipOn = false ∨ 48 ≤ (p.length : Int) - p.skip - p.top →
          ∃ t code, exec (.defineForm r) s = .next (replied 0x12#8 code [] t)
            ∧ (code = 0x00#8 ∨ code = 0x01#8)
            ∧ (code = 0x00#8 ↔
                p.length = r.length.toNat ∧ p.top = r.top.toNat ∧ p.skip = r.skip.toNat
                ∧ p.copies = r.copies.toNat % 16 ∧ p.cap = r.cap.toNat ∧ p.bands = bandsOf r.bandData
                ∧ ∀ x, p.tear = some x → x.idle = r.idle.toNat ∧ x.offset = r.offset.toNat)
            ∧ t.forms = { s.forms with slots := s.forms.slots.set r.slot.toNat (some p) }
            ∧ (r.slot.toNat ≠ s.forms.active → t = s.setForms t.forms)
            ∧ (r.slot.toNat = s.forms.active →
                t = ((s.setForms t.forms).setPaper { s.paper with y := s.paper.y % p.length }).setTime
                  { s.time with tearIdle := if tearReady t then some (100 * tearIdleOf (activeProfile t)) else none })))

/-- READ_FORM answers RANGE for a slot above 15, EMPTY_SLOT for an empty one, and else the profile as held behind its
flags; and a definition that no clamp changed reads back byte for byte as the fields it was sent with. The profile's bytes
are spelled for both paths: a FRICTION profile has path 1 and its four tear bytes are 0. -/
def Obligations.ReadFormReturnsDefinition : Prop :=
  (∀ (slot : Byte) (s : State), linkOpen s = true →
    (15 < slot.toNat → exec (.readForm slot) s = .next (replied 0x13#8 0x11#8 [] s))
    ∧ (slot.toNat ≤ 15 → s.forms.slots.getD slot.toNat none = none →
        exec (.readForm slot) s = .next (replied 0x13#8 0x1A#8 [] s))
    ∧ (slot.toNat ≤ 15 → ∀ p, s.forms.slots.getD slot.toNat none = some p →
        exec (.readForm slot) s = .next (replied 0x13#8 0x00#8
          ((boolByte (slot.toNat == s.forms.active) ||| (boolByte p.tear.isSome <<< 1)) :: profileBytes p) s)))
  ∧ (∀ (r : FormRequest) (skipOn bidir : Bool),
      r.path = 0#8 → r.skipOn = boolByte skipOn → r.bidir = boolByte bidir → r.copies.toNat < 16 →
      r.bandData.length = 4 * r.bandCount.toNat →
      heldProfile .tractor skipOn bidir r = sentProfile .tractor skipOn bidir r →
      profileBytes (heldProfile .tractor skipOn bidir r) = (requestPayload (.defineForm r)).drop 1)
  ∧ (∀ (p : Profile) (idle offset : Nat),
      (p.path = .tractor ∧ p.tear = some { idle := idle, offset := offset })
        ∨ (p.path = .friction ∧ p.tear = none ∧ idle = 0 ∧ offset = 0) →
      profileBytes p =
        [ (if p.path = .tractor then 0#8 else 1#8),
          BitVec.ofNat 8 p.length, BitVec.ofNat 8 (p.length / 256), BitVec.ofNat 8 p.top, BitVec.ofNat 8 (p.top / 256),
          BitVec.ofNat 8 p.skip, BitVec.ofNat 8 (p.skip / 256), (if p.skipOn then 1#8 else 0#8),
          BitVec.ofNat 8 p.copies, BitVec.ofNat 8 p.cap, (if p.bidir then 1#8 else 0#8),
          BitVec.ofNat 8 idle, BitVec.ofNat 8 (idle / 256), BitVec.ofNat 8 offset, BitVec.ofNat 8 (offset / 256),
          BitVec.ofNat 8 p.bands.length ]
        ++ p.bands.flatMap (fun b =>
          [ BitVec.ofNat 8 b.top, BitVec.ofNat 8 (b.top / 256),
            BitVec.ofNat 8 b.height, BitVec.ofNat 8 (b.height / 256) ]))

/-- SELECT_FORM answers RANGE, BUSY, EMPTY_SLOT in that order. One that is taken makes the slot active, sets Y to 0 and
discards a park without motion, keeping a and PE, and starts the tear timer afresh where the new profile calls for it. -/
def Obligations.SelectFormSwitches : Prop :=
  ∀ (slot : Byte) (s : State), linkOpen s = true →
    ∃ busy : Prop,
      (busy ↔ s.queue ≠ [] ∨ s.paper.state = .advancing ∨ s.paper.state = .retracting
        ∨ (s.carriage.state ≠ .idle ∧ s.carriage.state ≠ .unhomed))
      ∧ (15 < slot.toNat → exec (.selectForm slot) s = .next (replied 0x14#8 0x11#8 [] s))
      ∧ (slot.toNat ≤ 15 → busy → exec (.selectForm slot) s = .next (replied 0x14#8 0x10#8 [] s))
      ∧ (slot.toNat ≤ 15 → ¬busy → s.forms.slots.getD slot.toNat none = none →
          exec (.selectForm slot) s = .next (replied 0x14#8 0x1A#8 [] s))
      ∧ (slot.toNat ≤ 15 → ¬busy → ∀ p, s.forms.slots.getD slot.toNat none = some p →
          exec (.selectForm slot) s = .next (replied 0x14#8 0x00#8 []
            { s with
              forms := { s.forms with active := slot.toNat }
              paper :=
                { s.paper with
                  y := 0, park := none
                  state := if s.paper.state = .tearParked then .idle else s.paper.state }
              time :=
                { s.time with
                  tearIdle :=
                    if p.path = .tractor ∧ tearIdleOf p ≠ 0 ∧ (s.paper.state = .idle ∨ s.paper.state = .tearParked)
                        ∧ s.runner.fault = none ∧ s.runner.pause = false then
                      some (100 * tearIdleOf p)
                    else none } }))

/-! ## Requests: top of form and homing -/

/-- SET_TOF is answered BUSY while paper or carriage motion is in flight or an entry is past READY. Otherwise Y becomes 0 and
a park is discarded without motion; a and PE are kept; OUT stays OUT. -/
def Obligations.SetTofDeclaresTop : Prop :=
  ∀ s : State, linkOpen s = true →
    ∃ busy : Prop,
      (busy ↔ s.paper.state = .advancing ∨ s.paper.state = .retracting
        ∨ (s.carriage.state ≠ .idle ∧ s.carriage.state ≠ .unhomed)
        ∨ ∃ e ∈ s.queue, e.state ≠ .opened ∧ e.state ≠ .ready)
      ∧ (busy → exec .setTof s = .next (replied 0x15#8 0x10#8 [] s))
      ∧ (¬busy → exec .setTof s = .next (replied 0x15#8 0x00#8 []
          (settleTear (s.setPaper
            { s.paper with
              y := 0, park := none
              state := if s.paper.state = .tearParked then .idle else s.paper.state }))))

/-- HOME is answered FAULT while a fault is latched, else BUSY under the conditions of R53. One that is taken gives the
homing order: the position is given up, the drive goes on with the stall timer at 20 ms, and the clearing move or the seek
begins as the home sensor says. -/
def Obligations.HomeStartsHoming : Prop :=
  ∀ s : State, linkOpen s = true →
    ∃ busy : Prop,
      (busy ↔ s.paper.state = .advancing ∨ s.paper.state = .retracting
        ∨ (s.carriage.state ≠ .idle ∧ s.carriage.state ≠ .unhomed)
        ∨ ∃ e ∈ s.queue, e.state ≠ .opened ∧ e.state ≠ .ready)
      ∧ (s.runner.fault ≠ none → exec .home s = .next (replied 0x34#8 0x1B#8 [] s))
      ∧ (s.runner.fault = none → busy → exec .home s = .next (replied 0x34#8 0x10#8 [] s))
      ∧ (s.runner.fault = none → ¬busy → exec .home s = .next (replied 0x34#8 0x00#8 []
          { s with
            carriage :=
              { s.carriage with
                state := .homing, pos := none, drive := .on
                homing := some
                  { source := .host, stage := if s.pins.homeCovered then .clearing else .seek, travel := 0 } }
            time := { s.time with stall := some 20, tearIdle := none } }))

/-! ## Requests: Print Queue -/

/-- OPEN_PASS is judged RANGE, DUP_TAG, NO_SPACE in that order. One that is taken closes any OPEN entry without an event,
appends the adjusted entry in state OPEN with the deadline the close window gives, starts or stops the window timer, and
answers with the span and preference as held; a queue with an entry stops the tear timer. The codes of density and
preference are 0, 1, 2 for D60, D120, D240 and FWD, REV, ANY, and a density's columns number 816, 1632 or 3264. -/
def Obligations.OpenPassAppends : Prop :=
  (densityOf 0#8 = some .d60 ∧ densityOf 1#8 = some .d120 ∧ densityOf 2#8 = some .d240
    ∧ preferenceOf 0#8 = some .fwd ∧ preferenceOf 1#8 = some .rev ∧ preferenceOf 2#8 = some .any
    ∧ preferenceCode .fwd = 0#8 ∧ preferenceCode .rev = 1#8 ∧ preferenceCode .any = 2#8
    ∧ (∀ b : Byte, 3 ≤ b.toNat → densityOf b = none ∧ preferenceOf b = none)
    ∧ Density.d60.limit = 816 ∧ Density.d120.limit = 1632 ∧ Density.d240.limit = 3264)
  ∧ ∀ (r : PassRequest) (s : State), linkOpen s = true →
    (densityOf r.density = none ∨ preferenceOf r.pref = none ∨ r.span = 0#16
        ∨ (∃ d, densityOf r.density = some d ∧ d.limit ≤ r.start.toNat) →
      exec (.openPass r) s = .next (replied 0x20#8 0x11#8 [] s))
    ∧ (∀ d pref, densityOf r.density = some d → preferenceOf r.pref = some pref → r.start.toNat < d.limit →
        1 ≤ r.span.toNat →
        ((∃ e ∈ s.queue, e.tag = r.tag) → exec (.openPass r) s = .next (replied 0x20#8 0x14#8 [] s))
        ∧ ((∀ e ∈ s.queue, e.tag ≠ r.tag) → 8 ≤ s.queue.length →
            exec (.openPass r) s = .next (replied 0x20#8 0x12#8 [] s))
        ∧ ((∀ e ∈ s.queue, e.tag ≠ r.tag) → s.queue.length < 8 →
          ∃ code span held deadline,
            span = min r.span.toNat (d.limit - r.start.toNat)
            ∧ held = (if pref = .rev ∧ (activeProfile s).bidir = false then .fwd else pref)
            ∧ deadline = (if s.mech.window = 0 then none else some (s.time.ms + BitVec.ofNat 32 s.mech.window))
            ∧ (code = 0x00#8 ∨ code = 0x01#8)
            ∧ (code = 0x00#8 ↔ span = r.span.toNat ∧ held = pref
                ∧ (r.flags.getLsbD 0 = true ∨ r.distance.toNat ≤ 1440))
            ∧ exec (.openPass r) s = .next (replied 0x20#8 code (bytesLE 2 span ++ [preferenceCode held])
              { s with
                queue :=
                  s.queue.map (fun e =>
                    if e.state = .opened then
                      { e with state := .ready, pass := e.pass.map (fun p => { p with deadline := none }) }
                    else e)
                  ++ [{ tag := r.tag, state := .opened
                        advance := if r.flags.getLsbD 0 then .formFeed else .distance (min 1440 r.distance.toNat : Nat)
                        remaining := none
                        pass := some
                          { density := d, start := r.start.toNat, span := span, pref := held
                            slots := List.replicate 51 none, suppressed := none, dir := none, resumeA := none
                            resumeB := none, dotsFired := 0, dotsSuppressed := 0, dotsLost := 0, sweeps := 0
                            deadline := deadline } }]
                time :=
                  { s.time with
                    window := if s.mech.window = 0 then none else some s.mech.window, tearIdle := none } })))

/-- IMAGE is judged BAD_LENGTH, NO_ENTRY, CLOSED, RANGE, NO_SPACE in that order, NO_SPACE when the pool has fewer free blocks
than the touched absent slots need.

A carried-out IMAGE, in a state whose queue and pool are sound: the kept columns are merged into the entry's image by OR,
no other column of it and no column of another entry changes, no mark changes, one free block is taken for each absent slot
touched, and the close window restarts. The reply gives the columns merged and the free blocks left.

The data is a run of three-byte columns: row r of column i is bit 7 − (r mod 8) of byte 3i + r/8. -/
def Obligations.ImageJudgedAndMerged : Prop :=
  (∀ (tag : Byte) (o : Half) (k : Byte) (data : List Byte) (s : State), linkOpen s = true →
      (data.length ≠ 3 * k.toNat → exec (.image tag o k data) s = .next (replied 0x21#8 0x18#8 [] s))
      ∧ (data.length = 3 * k.toNat →
        (findEntry s.queue tag = none → exec (.image tag o k data) s = .next (replied 0x21#8 0x13#8 [] s))
        ∧ (∀ e, findEntry s.queue tag = some e →
          (e.state ≠ .opened → exec (.image tag o k data) s = .next (replied 0x21#8 0x15#8 [] s))
          ∧ (∀ p, e.state = .opened → e.pass = some p →
            (k.toNat = 0 ∨ 64 < k.toNat ∨ p.span ≤ o.toNat →
              exec (.image tag o k data) s = .next (replied 0x21#8 0x11#8 [] s))
            ∧ (1 ≤ k.toNat → k.toNat ≤ 64 → o.toNat < p.span →
              s.pool.freeCount
                < ((List.range Config.blockSlots).filter (fun j =>
                    decide (o.toNat / 64 ≤ j) && decide (j ≤ (o.toNat + min k.toNat (p.span - o.toNat) - 1) / 64)
                      && (p.slots.getD j none).isNone)).length →
              p.span ≤ 3264 →
              exec (.image tag o k data) s = .next (replied 0x21#8 0x12#8 [] s))))))
  ∧ (∀ (tag : Byte) (o : Half) (k : Byte) (data : List Byte) (s : State) (e : Entry) (p : Pass), linkOpen s = true →
      queueSound s = true → poolSound s = true →
      findEntry s.queue tag = some e → e.state = .opened → e.pass = some p →
      data.length = 3 * k.toNat → 1 ≤ k.toNat → k.toNat ≤ 64 → o.toNat < p.span →
      ((touchedSlots o.toNat (min k.toNat (p.span - o.toNat))).filter (fun j => (p.slots.getD j none).isNone)).length
        ≤ s.pool.freeCount →
      ∃ t p' kept need, kept = min k.toNat (p.span - o.toNat)
        ∧ need = ((touchedSlots o.toNat kept).filter (fun j => (p.slots.getD j none).isNone)).length
        ∧ exec (.image tag o k data) s = .next (replied 0x21#8 (if kept = k.toNat then 0x00#8 else 0x01#8)
            [BitVec.ofNat 8 kept, BitVec.ofNat 8 t.pool.freeCount] t)
        ∧ t.queue = s.queue.map (fun x => if x.tag = tag then { x with pass := some p' } else x)
        ∧ p' = { p with slots := p'.slots
                        deadline := if s.mech.window = 0 then none
                          else some (s.time.ms + BitVec.ofNat 32 s.mech.window) }
        ∧ (∀ j, (p.slots.getD j none).isSome = true → p'.slots.getD j none = p.slots.getD j none)
        ∧ t.pool.freeCount + need = s.pool.freeCount
        ∧ (∀ c, passColumn t.pool p' c =
            if o.toNat ≤ c ∧ c < o.toNat + kept then
              { passColumn s.pool p c with
                dots := (passColumn s.pool p c).dots ||| (columnsOf data).getD (c - o.toNat) 0#24 }
            else passColumn s.pool p c)
        ∧ (∀ x ∈ s.queue, x.tag ≠ tag → ∀ q, x.pass = some q → ∀ c, passColumn t.pool q c = passColumn s.pool q c)
        ∧ t = ((s.setPool t.pool).setQueue t.queue).setTime
            { s.time with window := if s.mech.window = 0 then none else some s.mech.window })
  ∧ (∀ (data : List Byte) (i r : Nat), r < 24 → 3 * i + 2 < data.length →
      ((columnsOf data).getD i 0#24).getLsbD r = (data.getD (3 * i + r / 8) 0#8).getLsbD (7 - r % 8))

/-- CLOSE_PASS: an OPEN entry becomes READY with no deadline, the window timer stops, and no event is latched; an entry in any
other state is refused with CLOSED and an absent tag with NO_ENTRY.

CANCEL_ENTRY, by the state of the entry that holds the tag: NO_ENTRY; STARTED past READY, or READY with a look-ahead plan
for it; else the entry is removed, its blocks are freed, and for an OPEN entry the window timer stops. No record is written
and no event is latched. -/
def Obligations.ClosePassAndCancelEntry : Prop :=
  (∀ (tag : Byte) (s : State), linkOpen s = true →
      ((∀ e ∈ s.queue, e.tag ≠ tag) → exec (.closePass tag) s = .next (replied 0x22#8 0x13#8 [] s))
      ∧ (∀ e, findEntry s.queue tag = some e → e.state ≠ .opened →
          exec (.closePass tag) s = .next (replied 0x22#8 0x15#8 [] s))
      ∧ (∀ e, findEntry s.queue tag = some e → e.state = .opened →
          exec (.closePass tag) s = .next (replied 0x22#8 0x00#8 []
            { s with
              queue := s.queue.map (fun x =>
                if x.tag = tag then
                  { x with state := .ready, pass := x.pass.map (fun p => { p with deadline := none }) }
                else x)
              time := { s.time with window := none } })))
  ∧ (∀ (tag : Byte) (s : State), linkOpen s = true →
      ((∀ e ∈ s.queue, e.tag ≠ tag) → exec (.cancelEntry tag) s = .next (replied 0x24#8 0x13#8 [] s))
      ∧ (∀ e, findEntry s.queue tag = some e →
        (e.state ≠ .opened → e.state ≠ .ready ∨ (∃ p, s.runner.lookAhead = some p ∧ p.tag = tag) →
          exec (.cancelEntry tag) s = .next (replied 0x24#8 0x16#8 [] s))
        ∧ (e.state = .opened ∨ (e.state = .ready ∧ ∀ p, s.runner.lookAhead = some p → p.tag ≠ tag) →
          exec (.cancelEntry tag) s = .next (replied 0x24#8 0x00#8 []
            (settleTear
              { s with
                queue := s.queue.filter (fun x => x.tag != tag)
                pool := s.pool.releaseAll e.slots
                time := { s.time with window := if e.state = .opened then none else s.time.window } })))))

/-- QUEUE_ADVANCE is refused with DUP_TAG, then with NO_SPACE. One that is taken appends a READY advance entry, with form feed
or the distance limited to −360..+1440 (OK_CLAMPED if it was limited), and closes no OPEN entry. -/
def Obligations.QueueAdvanceAppends : Prop :=
  ∀ (tag : Byte) (n : Half) (flags : Byte) (s : State), linkOpen s = true →
    ((∃ e ∈ s.queue, e.tag = tag) → exec (.queueAdvance tag n flags) s = .next (replied 0x23#8 0x14#8 [] s))
    ∧ ((∀ e ∈ s.queue, e.tag ≠ tag) → 8 ≤ s.queue.length →
        exec (.queueAdvance tag n flags) s = .next (replied 0x23#8 0x12#8 [] s))
    ∧ ((∀ e ∈ s.queue, e.tag ≠ tag) → s.queue.length < 8 →
        exec (.queueAdvance tag n flags) s = .next (replied 0x23#8
          (if flags.getLsbD 0 = true ∨ (-360 ≤ n.toInt ∧ n.toInt ≤ 1440) then 0x00#8 else 0x01#8) []
          { s with
            queue := s.queue ++
              [{ tag := tag, state := .ready
                 advance :=
                   if flags.getLsbD 0 = true then .formFeed
                   else if n.toInt < -360 then .distance (-360)
                   else if 1440 < n.toInt then .distance 1440
                   else .distance n.toInt
                 remaining := none, pass := none }]
            time := { s.time with tearIdle := none } }))

/-! ## Requests: Queue Runner -/

/-- PAUSE and COVER_OPEN while the carriage is in neither RUNUP nor SWEEP set their hold and stop no motion; RESUME clears the
pause flag and COVER_CLOSE the cover's hold, in every state, and neither starts anything by itself. -/
def Obligations.HoldsSetAndCleared : Prop :=
  ∀ s : State,
    (linkOpen s = true → s.carriage.state ≠ .runup → s.carriage.state ≠ .sweep →
      exec .pause s = .next (replied 0x30#8 0x00#8 []
        { s with runner := { s.runner with pause := true }, time := { s.time with tearIdle := none } }))
    ∧ (linkOpen s = true → exec .resume s = .next (replied 0x31#8 0x00#8 []
        (settleTear { s with runner := { s.runner with pause := false } })))
    ∧ (s.carriage.state ≠ .runup → s.carriage.state ≠ .sweep →
      exec .coverOpen s = .next { s with pins := { s.pins with coverOpen := true } })
    ∧ exec .coverClose s = .next { s with pins := { s.pins with coverOpen := false } }

/-- The suspend triggers of PAUSE and of the opening cover. In SWEEP with a channel not exhausted or a burst pending, both
channels are emptied, pending bursts are dropped, the carriage brakes, and the resume columns are written at once when no
burst runs and are left due when one does. With nothing left to match the trigger has no effect on the sweep. In RUNUP the
run-up is cut short, and nothing is written to the entry. The image, the heat and the position stay. -/
def Obligations.SuspendTriggersTaken : Prop :=
  ∀ (s : State) (pl : Plan), s.carriage.plan = some pl →
    ∃ stopped : State → State,
      (∀ u, stopped u =
        { u with
          carriage :=
            { u.carriage with
              state := .braking, brake := some (.suspend .hold pl.grade), plan := none
              chanA := { list := [], next := 0, armed := false }, chanB := { list := [], next := 0, armed := false } } })
      ∧ (∀ c u,
        (linkOpen s = true ∧ c = .pause
          ∧ u = { s with runner := { s.runner with pause := true } })
        ∨ (s.pins.coverOpen = false ∧ c = .coverOpen ∧ u = { s with pins := { s.pins with coverOpen := true } }) →
        ∃ t, exec c s = .next (if c = .pause then
              replied 0x30#8 0x00#8 [] (t.setTime { t.time with tearIdle := none }) else t)
          ∧ (s.carriage.state = .runup → t = stopped u)
          ∧ (s.carriage.state = .sweep →
              s.carriage.chanA.list.length ≤ s.carriage.chanA.next →
              s.carriage.chanB.list.length ≤ s.carriage.chanB.next →
              s.driver.pendA = none → s.driver.pendB = none → t = u)
          ∧ (s.carriage.state = .sweep →
              s.carriage.chanA.next < s.carriage.chanA.list.length
                ∨ s.carriage.chanB.next < s.carriage.chanB.list.length
                ∨ s.driver.pendA ≠ none ∨ s.driver.pendB ≠ none →
              (∀ r, s.driver.running = some r →
                t = (stopped { u with driver := { s.driver with pendA := none, pendB := none } }).setCarriage
                  { (stopped u).carriage with
                    resumeDue := some { listA := pl.listA, listB := pl.listB } })
              ∧ (s.driver.running = none → ∀ e rest p, s.queue = e :: rest → e.pass = some p →
                t = (stopped
                    { u with
                      driver := { s.driver with pendA := none, pendB := none }
                      queue :=
                        { e with
                          pass := some
                            { p with
                              resumeA := some (resumeOf s.pool p .a pl.listA)
                              resumeB := some (resumeOf s.pool p .b pl.listB) } } :: rest }).setCarriage
                  { (stopped u).carriage with resumeDue := none })))

/-- ABORT empties the queue, gives back every block and drops every plan; a head entry past READY leaves an ABORTED record
with its counters, the time and Y, and a record that arrives at a full completion list drops the oldest and latches
RECORD_OVERWRITTEN; the carriage brakes, or stays at rest, as R70 says; paper motion in flight is stopped under a
ramp-down of at most min(40, remaining) units, and one already in a ramp-down keeps its bound and becomes ABORT's; the
pause flag and a latched fault stay; ENTRY_ABORTED is latched at once when nothing was moving, and else waits.
ENTRY_ABORTED latches it once both are at rest. That a drive released already stays released rests on log entry 23, that a
braking becomes ABORT's on log entry 24, that a ramp-down begun by a fault keeps its bound on log entry 26. -/
def Obligations.AbortStopsEverything : Prop :=
  (∀ s : State, linkOpen s = true → s.events.records.length ≤ 8 →
    ∃ (u : State) (moving started full : Bool), exec .abort s = .next (replied 0x32#8 0x00#8 [] (settleTear u))
      ∧ (moving = true ↔ (s.carriage.state ≠ .idle ∧ s.carriage.state ≠ .unhomed)
          ∨ s.paper.state = .advancing ∨ s.paper.state = .retracting)
      ∧ (started = true ↔ ∃ e rest, s.queue = e :: rest ∧ e.state ≠ .opened ∧ e.state ≠ .ready)
      ∧ (full = true ↔ s.events.records.length = 8)
      ∧ u.queue = []
      ∧ u.pool = s.pool.releaseAll (s.queue.flatMap Entry.slots)
      ∧ u.runner =
          { phase := .noPhase, point := .skipCheck, suspend := none, headPlan := none, lookAhead := none
            pause := s.runner.pause, fault := s.runner.fault, abortPending := moving, homingOwed := false
            firstOrderDue := false }
      ∧ u.events.mask = s.events.mask
      ∧ u.events.latched = s.events.latched ||| (if started && full then 0x200#12 else 0#12)
          ||| (if moving then 0#12 else 0x002#12)
      ∧ (∀ e rest, s.queue = e :: rest → e.state ≠ .opened → e.state ≠ .ready →
          u.events.records = s.events.records.drop (if full then 1 else 0) ++
            [{ tag := e.tag, print := e.pass.isSome, outcome := .aborted
               fired := (e.pass.map Pass.dotsFired).getD 0
               suppressed := (e.pass.map Pass.dotsSuppressed).getD 0
               lost := (e.pass.map Pass.dotsLost).getD 0
               sweeps := (e.pass.map Pass.sweeps).getD 0
               time := s.time.ms, y := s.paper.y }])
      ∧ ((∀ e rest, s.queue = e :: rest → e.state = .opened ∨ e.state = .ready) →
          u.events.records = s.events.records)
      ∧ u.driver =
          { s.driver with
            pendA := none, pendB := none
            running := s.driver.running.map (fun r => { r with burst := { r.burst with orphan := true } }) }
      ∧ (s.carriage.state = .idle ∨ s.carriage.state = .unhomed →
          u.carriage = { s.carriage with resumeDue := none })
      ∧ (s.carriage.state ≠ .idle → s.carriage.state ≠ .unhomed →
          u.carriage =
            { state := .braking, pos := if s.carriage.state = .homing then none else s.carriage.pos
              drive := s.carriage.drive, homing := none, target := none, plan := none
              chanA := { list := [], next := 0, armed := false }, chanB := { list := [], next := 0, armed := false }
              brake := some .abort, resumeDue := none })
      ∧ (s.paper.motion = none → u.paper = s.paper)
      ∧ (∀ m, s.paper.motion = some m → m.stop = none →
          u.paper = { s.paper with
            motion := some { m with stop := some { cause := .abort, ramp := min 40 (m.distance.natAbs - m.moved) } } })
      ∧ (∀ m x, s.paper.motion = some m → m.stop = some x →
          u.paper = { s.paper with motion := some { m with stop := some { x with cause := .abort } } })
      ∧ u.time = { s.time with window := none }
      ∧ u.link = s.link ∧ u.mech = s.mech ∧ u.heat = s.heat ∧ u.forms = s.forms ∧ u.pins = s.pins
      ∧ u.outputs = s.outputs ∧ u.pending = s.pending)
  ∧ (∀ s : State, s.runner.abortPending = true → s.carriage.state = .idle ∨ s.carriage.state = .unhomed →
      s.paper.state = .idle ∨ s.paper.state = .out ∨ s.paper.state = .tearParked →
      exec .entryAborted s = .next
        { s with
          runner := { s.runner with abortPending := false }
          events := { s.events with latched := s.events.latched ||| 0x002#12 } })

/-- CLEAR_FAULT is answered BUSY in HOMING, else RANGE with no fault latched. Otherwise the fault record is cleared and no
event is latched; with an invalid position a homing that counts as the runner's is given, at once when the carriage is at
rest and owed until then when it is not.

Also after it, while a paper motion that a fault stopped or the braking of a halt has not come to rest, the runner gives
no order: POSITION homes and plans nothing, no sweep, advance, skip or retract is ordered, and no look-ahead plan is made.
It may give orders once nothing holds it, no homing of CLEAR_FAULT is owed or in flight, and no motion that a fault
stopped is moving. That plans, the homing check of POSITION and the return of a SUSPENDED entry wait with the orders rests
on log entry 18. -/
def Obligations.ClearFaultClears : Prop :=
  (∀ s : State, linkOpen s = true →
    (s.carriage.state = .homing → exec .clearFault s = .next (replied 0x33#8 0x10#8 [] s))
    ∧ (s.carriage.state ≠ .homing → s.runner.fault = none → exec .clearFault s = .next (replied 0x33#8 0x11#8 [] s))
    ∧ (∀ f, s.carriage.state ≠ .homing → s.runner.fault = some f →
      (s.carriage.pos ≠ none → exec .clearFault s = .next (replied 0x33#8 0x00#8 []
        (settleTear { s with runner := { s.runner with fault := none } })))
      ∧ (s.carriage.pos = none → s.carriage.state = .unhomed → exec .clearFault s = .next (replied 0x33#8 0x00#8 []
        { s with
          runner := { s.runner with fault := none, homingOwed := false }
          carriage :=
            { s.carriage with
              state := .homing, pos := none, drive := .on
              homing := some
                { source := .clearFault, stage := if s.pins.homeCovered then .clearing else .seek, travel := 0 } }
          time := { s.time with stall := some 20, tearIdle := none } }))
      ∧ (s.carriage.pos = none → s.carriage.state = .braking → exec .clearFault s = .next (replied 0x33#8 0x00#8 []
        { s with
          runner := { s.runner with fault := none, homingOwed := true }
          time := { s.time with tearIdle := none } }))))
  ∧ (∀ s : State,
      (∃ m x, s.paper.motion = some m ∧ m.stop = some x ∧ x.cause = .fault)
        ∨ (s.carriage.state = .braking ∧ s.carriage.brake = some .halt) →
      runnerFree s = false ∧ mayOrderFirst s = false
      ∧ (∀ c ∈ [Instr.position, .sweepOrder, .advanceOrder, .advanceEntryOrder, .lookAheadPlan, .resumeSuspended],
          exec c s = .next s)
      ∧ (skipNeeded (activeProfile s) s.paper.y = true → exec .prep s = .next s)
      ∧ (∀ e rest, s.queue = e :: rest → e.state ≠ .ready → exec .takeUp s = .next s))
  ∧ (∀ s : State, runnerFree s = true ↔
      s.runner.pause = false ∧ s.runner.fault = none ∧ s.pins.coverOpen = false ∧ s.runner.homingOwed = false
        ∧ (∀ h, s.carriage.homing = some h → h.source ≠ .clearFault)
        ∧ (∀ m x, s.paper.motion = some m → m.stop = some x → x.cause ≠ .fault)
        ∧ (s.carriage.state = .braking → s.carriage.brake ≠ some .halt))

/-! ## Time Base and timers -/

/-- MS_TICK: the count rises by one and wraps, each running timer has a tick less, and every tenth tick gives a cooling tick.
COOLING_TICK: each heat value falls by a thirty-second of it, rounded up, and a cool-down wait ends when every value is
below 4096.
That due ticks and expiries wait for their own commands is the model's choice (log entry 5). -/
def Obligations.TicksCountAndCool : Prop :=
  (∀ s : State, exec .msTick s = .next
    { s with
      time :=
        { ms := s.time.ms + 1#32
          divider := if s.time.divider < 9 then s.time.divider + 1 else 0
          coolingOwed := if s.time.divider < 9 then s.time.coolingOwed else s.time.coolingOwed + 1
          window := s.time.window.map (fun n => n - 1)
          tearIdle := s.time.tearIdle.map (fun n => n - 1)
          stall := s.time.stall.map (fun n => n - 1)
          byteGap := s.time.byteGap.map (fun n => n - 1) } })
  ∧ (∀ s : State, 0 < s.time.coolingOwed → ∃ t, exec .coolingTick s = .next t
      ∧ t.heat = s.heat.map (fun h => h - (h + 31) / 32)
      ∧ t.time = { s.time with coolingOwed := s.time.coolingOwed - 1 }
      ∧ (s.runner.phase = .coolWait → (∀ h ∈ t.heat, h < 4096) → t.runner = { s.runner with phase := .position })
      ∧ (s.runner.phase ≠ .coolWait ∨ (∃ h ∈ t.heat, 4096 ≤ h) → t.runner = s.runner)
      ∧ t = { s with heat := t.heat, time := t.time, runner := t.runner })

/-- A heat value that no firing renews reaches 0: after enough cooling ticks every value of a sound state is 0; and a tick
lowers a value from 1 to 32 by one. -/
def Obligations.UnrenewedHeatReachesZero : Prop :=
  (∀ h, 1 ≤ h → h ≤ 32 → coolHeat h = h - 1) ∧ coolHeat 0 = 0
  ∧ ∀ s : State, heatSound s = true → ∃ n, ∀ m, n ≤ m → (coolHeat^[m]) (hmax s) = 0 ∧ ∀ h ∈ s.heat, (coolHeat^[m]) h = 0

/-- WINDOW_TIMER_EXPIRY: with the window timer due and an entry OPEN, that entry becomes READY with no deadline, the timer
stops and AUTO_CLOSED is latched.

TEAR_IDLE_TIMER_EXPIRY with the timer due, its conditions holding and the forms sound: a tear advance of
d = ((L − Y) mod L) + tear offset; with d = 0 the paper parks at once with distance 0; with PE at 0 the advance is stopped
as it is taken and parks with distance 0 (R114).
A due expiry waits for its command (log entry 5). -/
def Obligations.WindowAndTearExpiry : Prop :=
  (∀ s : State, s.time.window = some 0 → (∃ e ∈ s.queue, e.state = .opened) →
      exec .windowTimerExpiry s = .next
        { s with
          queue := s.queue.map (fun e =>
            if e.state = .opened then
              { e with state := .ready, pass := e.pass.map (fun p => { p with deadline := none }) }
            else e)
          time := { s.time with window := none }
          events := { s.events with latched := s.events.latched ||| 0x004#12 } })
  ∧ (∀ (s : State) (d : Nat), s.time.tearIdle = some 0 → tearReady s = true → formSound s = true →
      (d : Int) = (((activeProfile s).length : Int) - s.paper.y) % (activeProfile s).length
        + ((activeProfile s).tear.map Tear.offset).getD 0 →
      (d = 0 → exec .tearIdleTimerExpiry s = .next
        { s with
          time := { s.time with tearIdle := none }
          paper := { s.paper with state := .tearParked, park := some 0, motion := none }
          events := { s.events with latched := s.events.latched ||| 0x100#12 } })
      ∧ (0 < d → s.paper.pe ≠ some 0 → exec .tearIdleTimerExpiry s = .next
        { s with
          time := { s.time with tearIdle := none }
          paper :=
            { s.paper with
              state := .advancing, park := none
              motion := some { purpose := .tear, distance := d, moved := 0, path := .tractor, stop := none } } })
      ∧ (0 < d → s.paper.pe = some 0 → exec .tearIdleTimerExpiry s = .next
        { s with
          time := { s.time with tearIdle := none }
          paper := { s.paper with state := .tearParked, park := some 0, motion := none }
          runner := { s.runner with pause := true }
          events := { s.events with latched := s.events.latched ||| 0x180#12 } }))

/-- The tear timer runs exactly while R110's six conditions hold, outside a reset held by RESET_N. Settling it starts it from
100 × tear idle ms when all hold and it was stopped, and stops it when one fails; nothing else changes. And every step keeps
it so: a timer that runs exactly while its conditions hold does so after the step. -/
def Obligations.TearTimerConditions : Prop :=
  ∃ ready : State → Bool,
    (∀ s, ready s = true ↔
      s.pins.resetLow = false ∧ (activeProfile s).path = .tractor
        ∧ ((activeProfile s).tear.map Tear.idle).getD 0 ≠ 0 ∧ s.queue = [] ∧ s.paper.state = .idle
        ∧ (s.carriage.state = .idle ∨ s.carriage.state = .unhomed) ∧ s.runner.fault = none
        ∧ s.runner.pause = false)
    ∧ (∀ s, settleTear s =
      { s with
        time :=
          { s.time with
            tearIdle :=
              if ready s then some (s.time.tearIdle.getD (100 * ((activeProfile s).tear.map Tear.idle).getD 0))
              else none } })
    ∧ (∀ s t, (s.time.tearIdle ≠ none ↔ ready s = true) → step s = .next t →
        (t.time.tearIdle ≠ none ↔ ready t = true))

/-! ## Carriage -/

/-- A stall: the stall timer due while the drive is on, or an encoder edge that would cross a limit of the travel while
the drive is on, or at any time in HOMING. The drive goes off, the position is lost, the carriage is UNHOMED, pending
bursts are dropped, the fault reaches the latch with its code, tag and position, a head entry in a run-up, a sweep or a
braking that no ABORT began is HALTED, and a paper motion is stopped. A homing that CLEAR_FAULT owes is given as the
carriage stands. The resume columns of a sweep that the stall stops, or of one stopped before whose columns were still
due, are written at once when no burst runs, and stay due while one does; of any other state the entry keeps them. The
position of a stall at a travel limit, a HOME_FAIL's among them, rests on log entry 8; that a HOME_FAIL of a homing given
on the runner's behalf carries the tag of the entry that is the head at that moment rests on log entry 19; that an owed
homing follows a stall rests on log entry 18, and that it then comes before an ENTRY_ABORTED that waits for rest on log
entry 27. -/
def Obligations.StallLosesPosition : Prop :=
  ∃ resumeAt : Pool → Pass → Chan → List Elem → Resume,
  (∀ pool p ch l,
    ((∀ x ∈ l, chanOutstanding pool p ch x.column = 0#24) → resumeAt pool p ch l = .done)
    ∧ ∀ before x after, l = before ++ x :: after →
      (∀ y ∈ before, chanOutstanding pool p ch y.column = 0#24) →
      chanOutstanding pool p ch x.column ≠ 0#24 → resumeAt pool p ch l = .column x.column)
  ∧ ∀ (c : Instr) (place : Option Nat) (s : State) (due : Option ResumeDue),
    due = (if s.carriage.state = .sweep then
        s.carriage.plan.map (fun pl => { listA := pl.listA, listB := pl.listB : ResumeDue })
      else s.carriage.resumeDue) →
    (c = .stallTimerExpiry ∧ s.carriage.drive = .on ∧ s.time.stall = some 0
        ∧ place = (if s.carriage.state = .homing then none else s.carriage.pos))
      ∨ ((∃ q, c = .encoderEdge q ∧ edgeDir q s = .fwd) ∧ (s.carriage.drive = .on ∨ s.carriage.state = .homing) ∧ s.carriage.pos = some 21599
        ∧ place = some 21599)
      ∨ ((∃ q, c = .encoderEdge q ∧ edgeDir q s = .rev) ∧ (s.carriage.drive = .on ∨ s.carriage.state = .homing) ∧ s.carriage.pos = some 0
        ∧ place = some 0) →
    ∃ (t : State) (halts : Bool), (s.runner.homingOwed = false → exec c s = .next t)
      ∧ (s.runner.homingOwed = true → exec c s = .next
        { t with
          carriage :=
            { t.carriage with
              state := .homing, drive := .on
              homing := some
                { source := .clearFault, stage := if s.pins.homeCovered then .clearing else .seek, travel := 0 } }
          runner := { t.runner with homingOwed := false }
          time := { t.time with stall := some 20 } })
      ∧ t.carriage.state = .unhomed ∧ t.carriage.pos = none ∧ t.carriage.drive = .off ∧ t.carriage.plan = none
      ∧ t.carriage.homing = none ∧ t.carriage.target = none ∧ t.carriage.brake = none
      ∧ t.carriage.chanA.list = [] ∧ t.carriage.chanB.list = []
      ∧ t.driver = { s.driver with pendA := none, pendB := none }
      ∧ t.runner.fault =
          (if s.runner.fault = none then
            some
              { code := if s.carriage.state = .homing then .homeFail else .stall
                tag :=
                  match s.carriage.state with
                  | .homing => if s.carriage.homing.map Homing.source = some .host then none else headTag s
                  | .approach => (s.runner.lookAhead.map Plan.tag).or (headTag s)
                  | .braking => if s.carriage.brake = some .abort then none else headTag s
                  | _ => headTag s
                pos := place }
          else s.runner.fault)
      ∧ t.events = { s.events with latched := s.events.latched ||| 0x020#12 }
      ∧ (halts = true ↔ s.carriage.state = .runup ∨ s.carriage.state = .sweep
          ∨ (s.carriage.state = .braking ∧ s.carriage.brake ≠ some .abort))
      ∧ (s.queue = [] → t.queue = [])
      ∧ (due = none ∨ s.driver.running ≠ none →
          t.carriage.resumeDue = due
          ∧ ∀ e rest, s.queue = e :: rest → t.queue = { e with state := if halts then .halted else e.state } :: rest)
      ∧ (∀ d, due = some d → s.driver.running = none →
          t.carriage.resumeDue = none
          ∧ ∀ e rest, s.queue = e :: rest → t.queue =
            { e with
              state := if halts then .halted else e.state
              pass := e.pass.map (fun p =>
                { p with
                  resumeA := some (resumeAt s.pool p .a d.listA)
                  resumeB := some (resumeAt s.pool p .b d.listB) }) } :: rest)
      ∧ (s.carriage.state = .approach → ∀ p, s.runner.lookAhead = some p →
          t.runner.lookAhead = none ∧ t.runner.headPlan = s.runner.headPlan)
      ∧ (s.carriage.state = .approach → s.runner.lookAhead = none → t.runner.headPlan = none)
      ∧ (s.paper.motion = none → t.paper = s.paper)
      ∧ (∀ m, s.paper.motion = some m → m.stop = none →
          t.paper = { s.paper with
            motion := some { m with stop := some { cause := .fault, ramp := min 40 (m.distance.natAbs - m.moved) } } })
      ∧ t.time = { s.time with stall := none, tearIdle := none }
      ∧ t.runner.phase = s.runner.phase ∧ t.runner.pause = s.runner.pause
      ∧ t.pool = s.pool ∧ t.heat = s.heat ∧ t.forms = s.forms ∧ t.mech = s.mech ∧ t.link = s.link
      ∧ t.pins =
          (match c with
          | .encoderEdge .encA => { s.pins with encA := !s.pins.encA }
          | .encoderEdge .encB => { s.pins with encB := !s.pins.encB }
          | _ => s.pins)

/-- ENCODER_EDGE is an edge of ENC_A or ENC_B: the channel's level turns, and the order of the channels' edges gives the
direction of the count. The leading channel's edges part the levels; edges in turn keep the direction, and an edge of the
channel that had the last one goes back.

In IDLE, APPROACH, BRAKING or HOMING with a valid position, and in RUNUP short of the first firing position, P follows
the edge by one count, and the timer of a drive that is on or released restarts for 20 ms. Without a position an edge counts nothing, in UNHOMED, in BRAKING and in the clearing move's stop.

A limit of the travel crossed with the drive off or released raises no fault outside HOMING. In IDLE the position is lost
and the carriage is UNHOMED. In the rest wait of BRAKING the motion ends as at its rest, without a position: after a sweep
the head phase goes on to ADVANCE, after a suspend the head entry is SUSPENDED and SWEEP_SUSPENDED latched, and a homing
that CLEAR_FAULT owes is given. In the rest wait of APPROACH the plan is dropped, the look-ahead one when there is one.
Which channel leads in rightward motion is a free value (log entry 6); that an owed homing comes before an ENTRY_ABORTED
that waits for the same rest rests on log entry 27. -/
def Obligations.EncoderEdgeFollowed : Prop :=
  (∀ s : State,
    (Config.encALeads = true → (edgeDir .encA s = .fwd ↔ s.pins.encA = s.pins.encB))
    ∧ (Config.encALeads = false → (edgeDir .encA s = .fwd ↔ s.pins.encA ≠ s.pins.encB))
    ∧ (edgeDir .encB s = .fwd ↔ edgeDir .encA s = .rev)
    ∧ ∀ q other, turnQuad q s = { s with
          pins :=
            match q with
            | .encA => { s.pins with encA := !s.pins.encA }
            | .encB => { s.pins with encB := !s.pins.encB } }
      ∧ (other ≠ q → edgeDir other (turnQuad q s) = edgeDir q s) ∧ edgeDir q (turnQuad q s) ≠ edgeDir q s)
  ∧ ∀ (ch : Quad) (dir : Dir) (s u : State), edgeDir ch s = dir → u = turnQuad ch s →
    (∀ p q, s.carriage.pos = some p → (dir = .fwd ∧ q = p + 1) ∨ (dir = .rev ∧ p = q + 1) → q ≤ 21599 →
      s.carriage.state = .idle ∨ s.carriage.state = .approach ∨ s.carriage.state = .braking
        ∨ s.carriage.state = .homing
        ∨ (s.carriage.state = .runup
          ∧ ∃ pl, s.carriage.plan = some pl ∧ firstFiring pl.dir pl.listA pl.listB ≠ some (q : Int)) →
      exec (.encoderEdge ch) s = .next (settleTear
        { u with
          carriage := { s.carriage with pos := some q }
          time := { s.time with stall := if s.carriage.drive = .off then s.time.stall else some 20 } }))
    ∧ (s.carriage.state = .unhomed → s.carriage.drive = .off → s.carriage.pos = none →
        exec (.encoderEdge ch) s = .next (settleTear u))
    ∧ (s.carriage.pos = none → s.carriage.drive ≠ .off →
        s.carriage.state = .braking
          ∨ (s.carriage.state = .homing ∧ ∃ h, s.carriage.homing = some h ∧ h.stage = .clearStop) →
        exec (.encoderEdge ch) s = .next (settleTear { u with time := { s.time with stall := some 20 } }))
    ∧ ((dir = .fwd ∧ s.carriage.pos = some 21599) ∨ (dir = .rev ∧ s.carriage.pos = some 0) →
      ∃ rested : State → State,
        (s.runner.homingOwed = false → ∀ v, rested v = v)
        ∧ (s.runner.homingOwed = true → ∀ v, rested v =
          { v with
            carriage :=
              { v.carriage with
                state := .homing, drive := .on
                homing := some
                  { source := .clearFault, stage := if s.pins.homeCovered then .clearing else .seek, travel := 0 } }
            runner := { v.runner with homingOwed := false }
            time := { v.time with stall := some 20 } })
        ∧ (s.carriage.state = .idle → s.carriage.drive = .off →
          exec (.encoderEdge ch) s = .next (settleTear
            { u with carriage := { s.carriage with pos := none, state := .unhomed } }))
        ∧ (s.carriage.state = .approach → s.carriage.drive = .released →
          exec (.encoderEdge ch) s = .next (settleTear (rested
            { u with
              carriage := { s.carriage with pos := none, state := .unhomed, drive := .off, target := none }
              time := { s.time with stall := none }
              runner :=
                if s.runner.lookAhead = none then { s.runner with headPlan := none }
                else { s.runner with lookAhead := none } })))
        ∧ (s.carriage.state = .braking → s.carriage.drive = .released →
          ∃ still : State, still =
              { u with
                carriage := { s.carriage with pos := none, state := .unhomed, drive := .off, brake := none }
                time := { s.time with stall := none } }
            ∧ (∀ g, s.carriage.brake = some (.sweepEnd g) →
              exec (.encoderEdge ch) s = .next (settleTear (rested
                { still with runner := { s.runner with phase := .advance } })))
            ∧ (∀ reason g e rest, s.carriage.brake = some (.suspend reason g) → s.queue = e :: rest →
              exec (.encoderEdge ch) s = .next (settleTear (rested
                { still with
                  runner := { s.runner with suspend := some reason }
                  queue := { e with state := .suspended } :: rest
                  events := { s.events with latched := s.events.latched ||| 0x008#12 } })))
            ∧ (s.carriage.brake = some .halt ∨ s.carriage.brake = some .abort →
              exec (.encoderEdge ch) s = .next (settleTear (rested still)))))

/-- Homing's sensor and its counted moves. HOME_SENSOR_CHANGE: uncovering ends the clearing move; the covering edge in the
seek sets P to 120 and makes it valid; elsewhere only the pin changes. Edges in the two moves count their travel, by
the direction the order of the channels' edges gives, and at 720 or 23040 counts homing fails with HOME_FAIL.
The travel is counted net (log entry 7), a HOME_FAIL carries the tag of the entry that is the head at that moment (log
entry 19), and the sensor acts on a change of its level (log entry 22). -/
def Obligations.HomingSensorAndTravel : Prop :=
  (∀ (covered : Bool) (s : State), s.pins.homeCovered = !covered →
    ∃ t, exec (.homeSensorChange covered) s = .next t
      ∧ t = { s with pins := { s.pins with homeCovered := covered }, carriage := t.carriage }
      ∧ (∀ h, s.carriage.state = .homing → s.carriage.homing = some h → h.stage = .clearing → covered = false →
          t.carriage = { s.carriage with homing := some { h with stage := .clearStop } })
      ∧ (∀ h, s.carriage.state = .homing → s.carriage.homing = some h → h.stage = .seek → covered = true →
          t.carriage = { s.carriage with pos := some 120, homing := some { h with stage := .seekStop } })
      ∧ (∀ h, s.carriage.homing = some h →
          (h.stage ≠ .clearing ∨ covered = true) → (h.stage ≠ .seek ∨ covered = false) → t.carriage = s.carriage)
      ∧ (s.carriage.state ≠ .homing → t.carriage = s.carriage))
  ∧ (∀ (ch : Quad) (dir : Dir) (s : State) (h : Homing) (n limit : Int), edgeDir ch s = dir →
      s.carriage.state = .homing → s.carriage.pos = none → s.carriage.drive = .on → s.carriage.homing = some h →
      (h.stage = .clearing ∧ limit = 720 ∧ n = h.travel + (if dir = .fwd then 1 else -1))
        ∨ (h.stage = .seek ∧ limit = 23040 ∧ n = h.travel + (if dir = .rev then 1 else -1)) →
      (n < limit → exec (.encoderEdge ch) s = .next (settleTear
        { turnQuad ch s with
          carriage := { s.carriage with homing := some { h with travel := n } }
          time := { s.time with stall := some 20 } }))
      ∧ (limit ≤ n → s.runner.homingOwed = false → s.runner.fault = none →
          ∃ t, exec (.encoderEdge ch) s = .next t ∧ t.carriage.state = .unhomed ∧ t.carriage.drive = .off
            ∧ t.events.latched = s.events.latched ||| 0x020#12
            ∧ t.runner.fault = some
                { code := .homeFail, tag := if h.source = .host then none else headTag s, pos := none }))

/-- BRAKE_RAMP_END releases the drive at the end of a braking, an approach, or one of homing's stops; elsewhere, homing's
clearing move and seek among it, it changes nothing.

REST_DETECTED with the drive released and the rest timer due. A braking ends in IDLE, or UNHOMED without a position: after
a sweep the head phase goes on to ADVANCE, after a suspend the head entry is SUSPENDED with its reason and SWEEP_SUSPENDED
is latched; and a homing that CLEAR_FAULT owes is given as the carriage comes to rest. An approach ends at its target and
is repeated elsewhere. Homing goes from the clearing stop to the seek, from the seek's stop to the park move, and ends at
360 with HOMED; rest elsewhere repeats the park move. The end of a ramp is a command of its own and may come at any P (log
entries 9, 17); that an owed homing comes before an ENTRY_ABORTED that waits for the same rest rests on log entry 27. -/
def Obligations.RampEndAndRest : Prop :=
  (∀ s : State,
      (s.carriage.drive = .on →
        s.carriage.state = .braking ∨ s.carriage.state = .approach
          ∨ (s.carriage.state = .homing ∧ ∃ h, s.carriage.homing = some h
              ∧ (h.stage = .clearStop ∨ h.stage = .seekStop ∨ h.stage = .park)) →
        exec .brakeRampEnd s = .next { s with carriage := { s.carriage with drive := .released } })
      ∧ (s.carriage.drive ≠ .on ∨ s.carriage.state = .runup ∨ s.carriage.state = .sweep
          ∨ s.carriage.state = .idle ∨ s.carriage.state = .unhomed
          ∨ (s.carriage.state = .homing ∧ ∃ h, s.carriage.homing = some h
              ∧ (h.stage = .clearing ∨ h.stage = .seek)) →
          exec .brakeRampEnd s = .next s))
  ∧ (∀ s : State, s.carriage.drive = .released → s.time.stall = some 0 →
      ∃ (still : State) (rested : State → State), still =
          { s with
            carriage :=
              { s.carriage with
                state := if s.carriage.pos = none then .unhomed else .idle, drive := .off, brake := none }
            time := { s.time with stall := none } }
        ∧ (s.runner.homingOwed = false → ∀ u, rested u = u)
        ∧ (s.runner.homingOwed = true → ∀ u, rested u =
          { u with
            carriage :=
              { u.carriage with
                state := .homing, pos := none, drive := .on
                homing := some
                  { source := .clearFault, stage := if s.pins.homeCovered then .clearing else .seek, travel := 0 } }
            runner := { u.runner with homingOwed := false }
            time := { u.time with stall := some 20 } })
        ∧ (s.carriage.state = .braking →
          (∀ g, s.carriage.brake = some (.sweepEnd g) →
            exec .restDetected s = .next (settleTear (rested
              { still with runner := { s.runner with phase := .advance } })))
          ∧ (∀ reason g e rest, s.carriage.brake = some (.suspend reason g) → s.queue = e :: rest →
            exec .restDetected s = .next (settleTear (rested
              { still with
                runner := { s.runner with suspend := some reason }
                queue := { e with state := .suspended } :: rest
                events := { s.events with latched := s.events.latched ||| 0x008#12 } })))
          ∧ (s.carriage.brake = some .halt ∨ s.carriage.brake = some .abort →
            exec .restDetected s = .next (settleTear (rested still))))
        ∧ (s.carriage.state = .approach →
          (s.carriage.pos = s.carriage.target → exec .restDetected s = .next (settleTear
            { s with
              carriage := { s.carriage with state := .idle, drive := .off, target := none }
              time := { s.time with stall := none } }))
          ∧ (s.carriage.pos ≠ s.carriage.target → exec .restDetected s = .next
            { s with carriage := { s.carriage with drive := .on }, time := { s.time with stall := some 20 } }))
        ∧ (∀ h, s.carriage.state = .homing → s.carriage.homing = some h →
          (h.stage = .park → s.carriage.pos = some 360 → exec .restDetected s = .next (settleTear
            { s with
              carriage := { s.carriage with state := .idle, drive := .off, homing := none }
              time := { s.time with stall := none }
              events := { s.events with latched := s.events.latched ||| 0x800#12 } }))
          ∧ (∀ next, (h.stage = .clearStop ∧ next = .seek) ∨ (h.stage = .seekStop ∧ next = .park)
                ∨ (h.stage = .park ∧ s.carriage.pos ≠ some 360 ∧ next = HomingStage.park) →
              exec .restDetected s = .next (settleTear
                { s with
                  carriage := { s.carriage with drive := .on, homing := some { h with stage := next, travel := 0 } }
                  time := { s.time with stall := some 20 } }))))

/-- The edge that ends a run-up, and matches in a sweep. A row of a column is outstanding for channel A when it is even,
for B when odd, lies in a column of the pass, holds a dot, is not suppressed and bears no mark; row r fires through output
M[r] in group K[M[r]], each group in rising order of its rows. A match forms the burst of the rows of its channel that are
outstanding in the column, through the pin map and in the groups of the group map. It starts at once when no burst of the
channel waits, the driver is free and the cover closed, and else waits; an older burst of the channel still waiting is
discarded: its dots are marked lost and counted, and DOTS_LOST is latched when it has any. The edge that brings P to the
first firing position makes the state SWEEP, arms both channels, raises sweeps used up to 255, and compares at once. In
SWEEP an edge in the sweep direction matches each armed channel whose next firing position it reaches and moves its index
on; of two matches of one edge channel A's is taken first. An edge that matches nothing, and one against the sweep
direction, change nothing but P and the timer. A DFAULT_N already asserted is found as the burst starts, as if asserted
then. The order that dates a burst is the model's count of matching edges (log entry 14). -/
def Obligations.RunUpEndsAndChannelsMatch : Prop :=
  (∀ (pool : Pool) (p : Pass) (ch : Chan) (c r : Nat), r < 24 →
    ((chanOutstanding pool p ch c).getLsbD r = true ↔
      p.start ≤ c ∧ c < p.start + p.span ∧ r % 2 = (match ch with | .a => 0 | .b => 1)
        ∧ ∃ sup block col, p.suppressed = some sup ∧ p.slots.getD ((c - p.start) / 64) none = some block
          ∧ col = pool.read (64 * block + (c - p.start) % 64) ∧ col.dots.getLsbD r = true
          ∧ sup.getLsbD r = false ∧ col.fired.getLsbD r = false ∧ col.lost.getLsbD r = false))
  ∧ (∀ (m : Mech) (pinMap : List Nat) (rows : Rows) (groups : List (List (Nat × Nat))),
    groups = groupPairs m (pairsOf pinMap rows) →
    groups.length = m.phaseCount
    ∧ ∀ k g, groups[k]? = some g → g.Pairwise (fun x y => x.1 < y.1)
      ∧ ∀ r o, (r, o) ∈ g ↔ r < 24 ∧ rows.getLsbD r = true ∧ o = pinMap.getD r 0 ∧ m.groupMap.getD o 0 = k)
  ∧ ∃ (matched : Chan → Nat → State → State) (both : Option Elem → Option Elem → State → State)
    (found : State → Result),
    (∀ ch c u e rest pass b waiting, u.queue = e :: rest → e.pass = some pass →
      b =
        { chan := ch, tag := e.tag, column := c
          groups := groupPairs u.mech (pairsOf u.driver.pinMap (chanOutstanding u.pool pass ch c))
          order := u.driver.matchCount, orphan := false } →
      waiting =
        (match ch with
          | .a => { u.driver with pendA := some b }
          | .b => { u.driver with pendB := some b }) →
      ((match ch with | .a => u.driver.pendA | .b => u.driver.pendB) = none →
        (u.driver.running = none → u.carriage.state = .sweep → u.carriage.pos ≠ none → u.pins.coverOpen = false →
          matched ch c u = { u with driver := { u.driver with running := some { burst := b, next := 0 } } })
        ∧ (u.driver.running ≠ none ∨ u.pins.coverOpen = true → matched ch c u = { u with driver := waiting }))
      ∧ (∀ old, (match ch with | .a => u.driver.pendA | .b => u.driver.pendB) = some old →
        (old.orphan = true ∨ old.groups.flatten = [] → matched ch c u = { u with driver := waiting })
        ∧ (old.orphan = false → old.groups.flatten ≠ [] →
          ∃ pool', matched ch c u =
              { u with
                driver := waiting, pool := pool'
                queue :=
                  { e with pass := some { pass with dotsLost := pass.dotsLost + old.groups.flatten.length } } :: rest
                events := { u.events with latched := u.events.latched ||| 0x010#12 } }
            ∧ pool'.free = u.pool.free
            ∧ (u.pool.wf = true → ∀ k, pool'.read k =
              if pass.address (old.column - pass.start) = some k then
                { u.pool.read k with lost := (u.pool.read k).lost ||| pairRows old.groups.flatten }
              else u.pool.read k))))
    ∧ (∀ u x y, both none none u = u ∧ both (some x) none u = matched .a x.column u
      ∧ both none (some y) u = matched .b y.column u
      ∧ both (some x) (some y) u = matched .b y.column (matched .a x.column u))
    ∧ (∀ u, (u.pins.driveFault = false → found u = .next (settleTear u))
      ∧ (u.pins.driveFault = true → found u = exec (.driveFault true) u))
    ∧ (∀ (ch : Quad) (dir : Dir) (s : State) (p q : Nat) (pl : Plan) (e : Entry) (rest : List Entry) (pass : Pass)
        (hitA hitB : Option Elem), edgeDir ch s = dir →
      s.carriage.pos = some p → (dir = .fwd ∧ q = p + 1) ∨ (dir = .rev ∧ p = q + 1) → q ≤ 21599 →
      s.carriage.plan = some pl → s.carriage.drive = .on → s.queue = e :: rest → e.pass = some pass →
      (s.carriage.state = .runup → s.carriage.chanA = { list := pl.listA, next := 0, armed := false } →
        s.carriage.chanB = { list := pl.listB, next := 0, armed := false } →
        firstFiring pl.dir pl.listA pl.listB = some (q : Int) →
        (∀ x, hitA = some x ↔ pl.listA.head? = some x ∧ x.pos = q) →
        (∀ x, hitB = some x ↔ pl.listB.head? = some x ∧ x.pos = q) →
        exec (.encoderEdge ch) s = found (both hitA hitB
          { turnQuad ch s with
            carriage :=
              { s.carriage with
                state := .sweep, pos := some q
                chanA := { list := pl.listA, next := if hitA = none then 0 else 1, armed := true }
                chanB := { list := pl.listB, next := if hitB = none then 0 else 1, armed := true } }
            queue := { e with pass := some { pass with sweeps := min 255 (pass.sweeps + 1) } } :: rest
            driver := { s.driver with matchCount := s.driver.matchCount + 1 }
            time := { s.time with stall := some 20 } }))
      ∧ (s.carriage.state = .sweep → dir ≠ pl.dir → exec (.encoderEdge ch) s = .next (settleTear
          { turnQuad ch s with
            carriage := { s.carriage with pos := some q }
            time := { s.time with stall := some 20 } }))
      ∧ (s.carriage.state = .sweep → dir = pl.dir →
        (∀ x, hitA = some x ↔ s.carriage.chanA.armed = true
          ∧ s.carriage.chanA.list[s.carriage.chanA.next]? = some x ∧ x.pos = q) →
        (∀ x, hitB = some x ↔ s.carriage.chanB.armed = true
          ∧ s.carriage.chanB.list[s.carriage.chanB.next]? = some x ∧ x.pos = q) →
        hitA ≠ none ∨ hitB ≠ none ∨ s.driver.running ≠ none ∨ s.driver.pendA ≠ none ∨ s.driver.pendB ≠ none
          ∨ s.carriage.chanA.next < s.carriage.chanA.list.length
          ∨ s.carriage.chanB.next < s.carriage.chanB.list.length →
        exec (.encoderEdge ch) s = found (both hitA hitB
          { turnQuad ch s with
            carriage :=
              { s.carriage with
                pos := some q
                chanA :=
                  { s.carriage.chanA with next := s.carriage.chanA.next + if hitA = none then 0 else 1 }
                chanB :=
                  { s.carriage.chanB with next := s.carriage.chanB.next + if hitB = none then 0 else 1 } }
            driver :=
              { s.driver with matchCount := s.driver.matchCount + if hitA = none ∧ hitB = none then 0 else 1 }
            time := { s.time with stall := some 20 } })))

/-! ## Head Driver and Heat Model -/

/-- BURST_SLOT: at the start of the running burst's next slot its group's outputs are pulsed for 30 + 10·copies µs, each
of them charged 4 + copies up to 16383, the dots of the group marked fired and counted, unless the burst's entry has gone.
Here no output is left at 6144 or more, or the carriage is not sweeping, or its sweep has nothing left to match and no
burst waits, so that nothing is suspended.

A firing that leaves its output at 6144 or more in a sweep that has work left hands the carriage a thermal suspend trigger
in the same slot: the channels are emptied, the carriage brakes for a thermal suspend, and the resume columns are due once
the running burst has ended. The slot is fired all the same: its pulses, heat, marks and counters are as above. -/
def Obligations.SlotFiresGroup : Prop :=
  (∀ (s : State) (r : Running) (pairs : List (Nat × Nat)), s.driver.running = some r →
      r.burst.groups[r.next]? = some pairs → (pairs.map Prod.snd).Nodup → (∀ x ∈ pairs, x.1 < 24 ∧ x.2 < 24) →
      s.heat.length = 24 → s.pool.wf = true → s.carriage.state ≠ .runup →
      s.carriage.state ≠ .sweep ∨ (∀ x ∈ pairs, s.heat.getD x.2 0 + (4 + (activeProfile s).copies) < 6144)
        ∨ (s.carriage.chanA.list.length ≤ s.carriage.chanA.next ∧ s.carriage.chanB.list.length ≤ s.carriage.chanB.next
          ∧ s.driver.pendA = none ∧ s.driver.pendB = none) →
      ∃ t, exec .burstSlot s = .next t
        ∧ t.driver = { s.driver with running := some { r with next := r.next + 1 } }
        ∧ (∀ p, t.outputs.pinOut.getLsbD p = (pairs.map Prod.snd).contains p)
        ∧ t.outputs.pulse = 30 + 10 * (activeProfile s).copies
        ∧ t.heat.length = 24
        ∧ (∀ p, p < 24 → t.heat.getD p 0 =
            if p ∈ pairs.map Prod.snd then min 16383 (s.heat.getD p 0 + (4 + (activeProfile s).copies))
            else s.heat.getD p 0)
        ∧ (r.burst.orphan = true → t.queue = s.queue ∧ t.pool = s.pool)
        ∧ (∀ e rest p, r.burst.orphan = false → s.queue = e :: rest → e.pass = some p →
            t.queue = { e with pass := some { p with dotsFired := p.dotsFired + pairs.length } } :: rest
            ∧ ∀ k, t.pool.read k =
                if pairs ≠ [] ∧ p.address (r.burst.column - p.start) = some k then
                  { s.pool.read k with fired := (s.pool.read k).fired ||| pairRows pairs }
                else s.pool.read k)
        ∧ t.carriage = s.carriage ∧ t.paper = s.paper ∧ t.runner = s.runner ∧ t.events = s.events
        ∧ t.time = s.time ∧ t.forms = s.forms ∧ t.pool.free = s.pool.free)
  ∧ (∀ (s : State) (r : Running) (pairs : List (Nat × Nat)) (pl : Plan) (x : Nat × Nat), s.driver.running = some r →
      r.burst.groups[r.next]? = some pairs → x ∈ pairs → x.2 < 24 → s.heat.length = 24 →
      6144 ≤ s.heat.getD x.2 0 + (4 + (activeProfile s).copies) → s.carriage.state = .sweep →
      s.carriage.plan = some pl →
      s.carriage.chanA.next < s.carriage.chanA.list.length ∨ s.carriage.chanB.next < s.carriage.chanB.list.length
        ∨ s.driver.pendA ≠ none ∨ s.driver.pendB ≠ none →
      ∃ t, exec .burstSlot s = .next t
        ∧ t.carriage =
            { s.carriage with
              state := .braking, brake := some (.suspend .thermal pl.grade), plan := none
              chanA := { list := [], next := 0, armed := false }, chanB := { list := [], next := 0, armed := false }
              resumeDue := some { listA := pl.listA, listB := pl.listB } }
        ∧ t.driver =
            { s.driver with running := some { r with next := r.next + 1 }, pendA := none, pendB := none }
        ∧ (∀ p, t.outputs.pinOut.getLsbD p = true ↔ p < 24 ∧ p ∈ pairs.map Prod.snd)
        ∧ t.outputs.pulse = 30 + 10 * (activeProfile s).copies
        ∧ t.heat.length = 24
        ∧ ((pairs.map Prod.snd).Nodup → ∀ p, p < 24 → t.heat.getD p 0 =
            if p ∈ pairs.map Prod.snd then min 16383 (s.heat.getD p 0 + (4 + (activeProfile s).copies))
            else s.heat.getD p 0)
        ∧ (r.burst.orphan = true → t.queue = s.queue ∧ t.pool = s.pool)
        ∧ (∀ e rest p, r.burst.orphan = false → s.queue = e :: rest → e.pass = some p → s.pool.wf = true →
            t.queue = { e with pass := some { p with dotsFired := p.dotsFired + pairs.length } } :: rest
            ∧ ∀ k, t.pool.read k =
                if p.address (r.burst.column - p.start) = some k then
                  { s.pool.read k with fired := (s.pool.read k).fired ||| pairRows pairs }
                else s.pool.read k)
        ∧ t.paper = s.paper ∧ t.runner = s.runner ∧ t.events = s.events ∧ t.time = s.time ∧ t.forms = s.forms
        ∧ t.pool.free = s.pool.free)
  ∧ (∀ (pairs : List (Nat × Nat)) (i : Nat), (pairRows pairs).getLsbD i = true ↔ i < 24 ∧ i ∈ pairs.map Prod.fst)

/-- BURST_END: the driver is free. In SWEEP with the cover closed the burst that waits starts, the one of the earlier match
when two wait and channel A's when both came from one edge; a DFAULT_N already asserted is found at that start, as if
asserted then. With none waiting the driver is idle, and a sweep with both channels exhausted ends: both resume columns are
done and the carriage brakes. The resume columns that a sweep stopped under the burst left due are written: for each channel
the first column of its list that still holds an outstanding dot of the channel, else done. Before the last slot it changes
nothing.
The order of two waiting bursts is read from the model's count of matching edges (log entry 14). -/
def Obligations.BurstEndStartsNextOrEndsSweep : Prop :=
  ∃ resumeAt : Pool → Pass → Chan → List Elem → Resume,
    (∀ pool p ch l,
      ((∀ x ∈ l, chanOutstanding pool p ch x.column = 0#24) → resumeAt pool p ch l = .done)
      ∧ ∀ before x after, l = before ++ x :: after →
        (∀ y ∈ before, chanOutstanding pool p ch y.column = 0#24) →
        chanOutstanding pool p ch x.column ≠ 0#24 → resumeAt pool p ch l = .column x.column)
    ∧ ∀ (s : State) (r : Running), s.driver.running = some r →
      (r.next < r.burst.groups.length → exec .burstEnd s = .next s)
      ∧ (r.burst.groups.length ≤ r.next → s.carriage.resumeDue = none →
        s.pins.driveFault = false ∨ s.pins.coverOpen = true ∨ s.carriage.state ≠ .sweep
          ∨ (s.driver.pendA = none ∧ s.driver.pendB = none) →
        ∃ t, exec .burstEnd s = .next t
          ∧ t.outputs = { s.outputs with pinOut := 0#24 }
          ∧ (s.carriage.state = .sweep → s.carriage.pos ≠ none → s.pins.coverOpen = false →
            (∀ a, s.driver.pendA = some a → (∀ b, s.driver.pendB = some b → a.order ≤ b.order) →
              t.driver = { s.driver with running := some { burst := a, next := 0 }, pendA := none }
              ∧ t.carriage = s.carriage ∧ t.queue = s.queue)
            ∧ (∀ b, s.driver.pendB = some b → (∀ a, s.driver.pendA = some a → b.order < a.order) →
              t.driver = { s.driver with running := some { burst := b, next := 0 }, pendB := none }
              ∧ t.carriage = s.carriage ∧ t.queue = s.queue))
          ∧ (s.pins.coverOpen = true ∨ (s.driver.pendA = none ∧ s.driver.pendB = none) →
            t.driver = { s.driver with running := none })
          ∧ (s.driver.pendA = none → s.driver.pendB = none → s.carriage.state = .sweep →
              ∀ pl e rest p, s.carriage.plan = some pl → s.queue = e :: rest → e.pass = some p →
              (s.carriage.chanA.list.length ≤ s.carriage.chanA.next →
                s.carriage.chanB.list.length ≤ s.carriage.chanB.next →
                t.carriage =
                  { s.carriage with
                    state := .braking, brake := some (.sweepEnd pl.grade), plan := none
                    chanA := { list := [], next := 0, armed := false }
                    chanB := { list := [], next := 0, armed := false } }
                ∧ t.queue = { e with pass := some { p with resumeA := some .done, resumeB := some .done } } :: rest)
              ∧ (s.carriage.chanA.next < s.carriage.chanA.list.length
                  ∨ s.carriage.chanB.next < s.carriage.chanB.list.length →
                t.carriage = s.carriage ∧ t.queue = s.queue))
          ∧ (s.carriage.state ≠ .sweep → t.driver = { s.driver with running := none } ∧ t.carriage = s.carriage
              ∧ t.queue = s.queue)
          ∧ t.pool = s.pool ∧ t.heat = s.heat ∧ t.paper = s.paper ∧ t.runner = s.runner ∧ t.events = s.events)
      ∧ (r.burst.groups.length ≤ r.next → s.carriage.resumeDue = none → s.pins.driveFault = true →
        s.carriage.state = .sweep → s.carriage.pos ≠ none → s.pins.coverOpen = false →
        (∀ a, s.driver.pendA = some a → (∀ b, s.driver.pendB = some b → a.order ≤ b.order) →
          exec .burstEnd s = exec (.driveFault true)
            { s with
              driver := { s.driver with running := some { burst := a, next := 0 }, pendA := none }
              outputs := { s.outputs with pinOut := 0#24 } })
        ∧ (∀ b, s.driver.pendB = some b → (∀ a, s.driver.pendA = some a → b.order < a.order) →
          exec .burstEnd s = exec (.driveFault true)
            { s with
              driver := { s.driver with running := some { burst := b, next := 0 }, pendB := none }
              outputs := { s.outputs with pinOut := 0#24 } }))
      ∧ (r.burst.groups.length ≤ r.next → s.carriage.state ≠ .sweep →
        ∀ d e rest p, s.carriage.resumeDue = some d → s.queue = e :: rest → e.pass = some p →
        exec .burstEnd s = .next (settleTear
          { s with
            queue :=
              { e with
                pass := some
                  { p with
                    resumeA := some (resumeAt s.pool p .a d.listA)
                    resumeB := some (resumeAt s.pool p .b d.listB) } } :: rest
            carriage := { s.carriage with resumeDue := none }
            driver := { s.driver with running := none }
            outputs := { s.outputs with pinOut := 0#24 } }))

/-- DRIVE_FAULT while a burst of a queued entry runs: the groups not yet issued are lost and counted, the driver is free and
starts nothing, the head entry is HALTED, and HEAD_DRIVE reaches the latch with the entry's tag and P, which also stops paper
motion in flight. A sweep halts and its pending bursts are dropped; the braking of a suspend goes on as that of a halt, and the
entry is no longer to be SUSPENDED; any other carriage state stays. The resume columns of the sweep stopped, or of one stopped
before under this burst, are written at once: the first column of each list that still holds an outstanding dot of the
channel, else done. The burst of an aborted entry marks and counts nothing and hands no tag. While the driver is free an
assertion only shows on the pin; so does a release.
The command carries the level of the pin (log entry 22); that a suspend's braking shows no sweep grade from the fault on is the
model's choice (log entry 24). -/
def Obligations.DriveFaultHaltsSweep : Prop :=
  (∀ s : State, exec (.driveFault false) s = .next (settleTear { s with pins := { s.pins with driveFault := false } }))
  ∧ (∀ s : State, s.driver.running = none →
      exec (.driveFault true) s = .next (settleTear { s with pins := { s.pins with driveFault := true } }))
  ∧ (∃ resumeAt : Pool → Pass → Chan → List Elem → Resume,
      (∀ pool p ch l,
        ((∀ x ∈ l, chanOutstanding pool p ch x.column = 0#24) → resumeAt pool p ch l = .done)
        ∧ ∀ before x after, l = before ++ x :: after →
          (∀ y ∈ before, chanOutstanding pool p ch y.column = 0#24) →
          chanOutstanding pool p ch x.column ≠ 0#24 → resumeAt pool p ch l = .column x.column)
      ∧ ∀ (s : State) (r : Running) (e : Entry) (rest : List Entry) (p : Pass) (due : Option ResumeDue),
        s.driver.running = some r → r.burst.orphan = false → s.queue = e :: rest → e.pass = some p → s.pool.wf = true →
        (s.carriage.state = .sweep ∧ ∃ pl, s.carriage.plan = some pl ∧ due = some { listA := pl.listA, listB := pl.listB })
          ∨ (s.carriage.state ≠ .sweep ∧ due = s.carriage.resumeDue) →
        ∃ t unfired e' p', exec (.driveFault true) s = .next t
          ∧ unfired = (r.burst.groups.drop r.next).flatten
          ∧ (s.carriage.state = .sweep →
            t.driver = { s.driver with running := none, pendA := none, pendB := none }
            ∧ t.carriage =
              { s.carriage with
                state := .braking, brake := some .halt, plan := none
                chanA := { list := [], next := 0, armed := false }
                chanB := { list := [], next := 0, armed := false }
                resumeDue := none })
          ∧ (s.carriage.state ≠ .sweep → t.driver = { s.driver with running := none })
          ∧ (∀ reason g, s.carriage.state = .braking → s.carriage.brake = some (.suspend reason g) →
            t.carriage = { s.carriage with brake := some .halt, resumeDue := none })
          ∧ (s.carriage.state ≠ .sweep →
            s.carriage.state ≠ .braking ∨ (∀ reason g, s.carriage.brake ≠ some (.suspend reason g)) →
            t.carriage = { s.carriage with resumeDue := none })
          ∧ t.queue = e' :: rest ∧ e'.state = .halted ∧ e'.tag = e.tag ∧ e'.advance = e.advance
          ∧ e'.remaining = e.remaining ∧ e'.pass = some p'
          ∧ p' = { p with dotsLost := p.dotsLost + unfired.length, resumeA := p'.resumeA, resumeB := p'.resumeB }
          ∧ (∀ d, due = some d → p'.resumeA = some (resumeAt t.pool p .a d.listA)
            ∧ p'.resumeB = some (resumeAt t.pool p .b d.listB))
          ∧ (due = none → p'.resumeA = p.resumeA ∧ p'.resumeB = p.resumeB)
          ∧ (∀ k, t.pool.read k =
              if unfired ≠ [] ∧ p.address (r.burst.column - p.start) = some k then
                { s.pool.read k with lost := (s.pool.read k).lost ||| pairRows unfired }
              else s.pool.read k)
          ∧ t.events =
              { s.events with
                latched := s.events.latched ||| 0x020#12 ||| (if unfired = [] then 0x000#12 else 0x010#12) }
          ∧ t.runner =
              { s.runner with
                suspend := none
                fault := if s.runner.fault = none then
                    some { code := .headDrive, tag := some r.burst.tag, pos := s.carriage.pos }
                  else s.runner.fault }
          ∧ (s.paper.motion = none → t.paper = s.paper)
          ∧ (∀ m, s.paper.motion = some m → m.stop = none → t.paper =
              { s.paper with
                motion := some
                  { m with stop := some { cause := .fault, ramp := min 40 (m.distance.natAbs - m.moved) } } })
          ∧ t.pins = { s.pins with driveFault := true } ∧ t.heat = s.heat
          ∧ t.outputs = { s.outputs with pinOut := 0#24 })
  ∧ (∀ (s : State) (r : Running), s.driver.running = some r → r.burst.orphan = true → s.carriage.state ≠ .sweep →
      (∀ reason g, s.carriage.brake ≠ some (.suspend reason g)) → s.carriage.resumeDue = none →
      s.paper.motion = none → exec (.driveFault true) s = .next (settleTear
        { s with
          driver := { s.driver with running := none }
          events := { s.events with latched := s.events.latched ||| 0x020#12 }
          runner :=
            { s.runner with
              fault := if s.runner.fault = none then
                  some { code := .headDrive, tag := none, pos := s.carriage.pos }
                else s.runner.fault }
          pins := { s.pins with driveFault := true }
          outputs := { s.outputs with pinOut := 0#24 } }))

/-! ## Paper Drive -/

/-- The paper-end sensor. A change to no paper sets PE to 540 and latches PAPER_END, in every paper state; a change to paper
makes PE absent and turns OUT into IDLE, leaving any other state, a motion and a park. While RESET_N is low only the pin
changes.
That a change during a reset held by RESET_N moves the pin alone rests on log entry 16. -/
def Obligations.PaperSensorChanges : Prop :=
  ∀ s : State,
    (s.pins.paperSeen = true → s.pins.resetLow = false → exec .paperSnsNoPaper s = .next
      { s with
        pins := { s.pins with paperSeen := false }
        paper := { s.paper with pe := some 540 }
        events := { s.events with latched := s.events.latched ||| 0x040#12 } })
    ∧ (s.pins.paperSeen = false → s.pins.resetLow = false → exec .paperSnsPaper s = .next (settleTear
      { s with
        pins := { s.pins with paperSeen := true }
        paper := { s.paper with pe := none, state := if s.paper.state = .out then .idle else s.paper.state } }))
    ∧ (s.pins.resetLow = true →
      exec .paperSnsNoPaper s = .next { s with pins := { s.pins with paperSeen := false } }
      ∧ exec .paperSnsPaper s = .next { s with pins := { s.pins with paperSeen := true } })

/-- FEED_UNIT of a motion with a unit left, that does not bring PE to 0 going forward: one platen step, the tractor step that
R97 calls for, and Y, a and PE in the same act.

The paper-end stop at the feed unit that brings PE to 0. PAPER_OUT_STOP is latched and the pause flag set in every case. An
entry's advance leaves the paper OUT and its remaining distance in the entry, or retires the entry when none remains; after
an ABORT nothing is written; a skip leaves OUT and nothing else; a tear advance parks with the distance moved, PAPER_OUT not
holding.
Platen and tractor steps show in the model's tallies (log entry 15). -/
def Obligations.FeedUnitMovesOrStops : Prop :=
  (∀ (s : State) (m : Motion) (sign : Int), s.paper.motion = some m → m.moved < m.distance.natAbs →
      (∀ x, m.stop = some x → 0 < x.ramp) → sign = (if 0 < m.distance then 1 else -1) →
      0 < (activeProfile s).length →
      (0 < m.distance → s.paper.pe ≠ some 0 ∧ s.paper.pe ≠ some 1) →
      ∃ t, exec .feedUnit s = .next t
        ∧ (t.paper.y : Int) = ((s.paper.y : Int) + sign) % (activeProfile s).length
        ∧ (s.paper.a ≤ 2 → m.path = .tractor →
            (t.paper.a : Int) = (s.paper.a + 2 * sign) % 3
            ∧ t.outputs.tractor = s.outputs.tractor + (s.paper.a + 2 * sign) / 3)
        ∧ (m.path = .friction → t.paper.a = s.paper.a ∧ t.outputs.tractor = s.outputs.tractor)
        ∧ t.outputs.platen = s.outputs.platen + sign
        ∧ t.paper.pe = s.paper.pe.map (fun n => if 0 < m.distance then n - 1 else min 540 (n + 1))
        ∧ t.paper.motion =
            some { m with moved := m.moved + 1, stop := m.stop.map (fun x => { x with ramp := x.ramp - 1 }) }
        ∧ t.paper.state = s.paper.state ∧ t.paper.park = s.paper.park
        ∧ t = (s.setPaper t.paper).setOutputs
            { s.outputs with platen := t.outputs.platen, tractor := t.outputs.tractor })
  ∧ (∀ (s : State) (m : Motion), s.paper.motion = some m → 0 < m.distance → m.moved < m.distance.natAbs →
      (∀ x, m.stop = some x → 0 < x.ramp) → s.paper.pe = some 1 →
      ∃ t, exec .feedUnit s = .next t
        ∧ t.runner.pause = true ∧ t.paper.pe = some 0 ∧ t.paper.motion = none
        ∧ t.paper.y = (s.paper.y + 1) % (activeProfile s).length
        ∧ t.time.tearIdle = none
        ∧ (m.purpose = .tear → t.paper.state = .tearParked ∧ t.paper.park = some (m.moved + 1)
            ∧ t.events.latched = s.events.latched ||| 0x180#12 ∧ t.queue = s.queue)
        ∧ (m.purpose ≠ .tear → t.paper.state = .out ∧ t.paper.park = none)
        ∧ (m.purpose = .skip → t.events.latched = s.events.latched ||| 0x080#12 ∧ t.queue = s.queue)
        ∧ (∀ tag e rest, m.purpose = .entryAdvance tag → s.queue = e :: rest →
            ((∃ x, m.stop = some x ∧ x.cause = .abort) → t.queue = s.queue)
            ∧ ((∀ x, m.stop = some x → x.cause ≠ .abort) → (m.moved : Int) + 1 < m.distance →
                t.queue = { e with remaining := some (m.distance - (m.moved + 1)) } :: rest
                ∧ t.events.latched = s.events.latched ||| 0x080#12)
            ∧ ((∀ x, m.stop = some x → x.cause ≠ .abort) → (m.moved : Int) + 1 = m.distance →
                t.queue = rest ∧ t.pool = s.pool.releaseAll e.slots ∧ t.runner.phase = .noPhase)))

/-- n feed units of one motion: Y, the tractor remainder and the tractor steps are those of one sum over the whole distance,
whichever way the paper moves.
Platen and tractor steps show in the model's tallies (log entry 15). -/
def Obligations.FeedUnitsGiveOneSum : Prop :=
  ∀ (n : Nat) (s : State) (m : Motion) (rest : List Instr) (sign : Int), s.paper.motion = some m → m.stop = none →
    m.moved + n ≤ m.distance.natAbs → sign = (if 0 < m.distance then 1 else -1) →
    s.paper.y < (activeProfile s).length → s.paper.a ≤ 2 →
    (0 < m.distance → ∀ k, s.paper.pe = some k → n < k) →
    ∃ t, Host.Core.run core n (s.setPending (List.replicate n .feedUnit ++ rest)) = .next t
      ∧ t.pending = rest
      ∧ (t.paper.y : Int) = ((s.paper.y : Int) + sign * n) % (activeProfile s).length
      ∧ (m.path = .tractor →
          (t.paper.a : Int) = (s.paper.a + 2 * (sign * n)) % 3
          ∧ t.outputs.tractor = s.outputs.tractor + (s.paper.a + 2 * (sign * n)) / 3)
      ∧ (m.path = .friction → t.paper.a = s.paper.a ∧ t.outputs.tractor = s.outputs.tractor)
      ∧ t.outputs.platen = s.outputs.platen + sign * n
      ∧ t.paper.motion = some { m with moved := m.moved + n }

/-- PAPER_MOTION_COMPLETE. A motion that has moved its whole distance ends: an entry's advance retires the entry in one act
(its DONE record, its blocks, its place, PASS_DONE; a record that arrives at a full completion list drops the oldest and
latches RECORD_OVERWRITTEN), a tear advance parks with its distance and TEAR_PARKED, a skip leaves the paper IDLE and the
runner checks again (PREP goes on, or ends, and an entry that holds a plan goes to POSITION), a retract leaves it IDLE and the
entry goes on. A motion that has units left and is not being stopped goes on.

The end of a stopped motion. After an ABORT an entry's advance leaves the paper IDLE with nothing written, and so does a
skip, stopped by an ABORT or by a fault; after a fault an advance writes what is left as the entry's remaining advance, and
retires the entry when nothing is left; a tear advance parks with what it moved and TEAR_PARKED, an unfinished retract with
what it had not yet retracted, without the event; a retract stopped with its whole distance moved leaves the paper IDLE, and
after a fault the entry goes on.

A park that stands as the motion ends, with the head entry in RETRACT and nothing keeping the runner, is retracted at once, in
its whole length: that of a tear advance, stopped or not, and the rest of a stopped retract; one of distance 0 is gone with no
motion and the entry goes on. That the retract is given in the same act rests on log entry 13. -/
def Obligations.MotionEndReported : Prop :=
  ∃ (retired : Entry → List Entry → State → State) (parked : Nat → State → State) (goesOn : Entry → State → State),
    (∀ e rest s, s.events.records.length ≤ 8 → retired e rest s =
      { s with
        paper := { s.paper with state := .idle, park := none, motion := none }
        queue := rest
        pool := s.pool.releaseAll e.slots
        runner :=
          { s.runner with
            phase := .noPhase, point := .skipCheck, suspend := none, headPlan := none, firstOrderDue := false }
        events :=
          { s.events with
            latched := s.events.latched ||| (if s.events.records.length = 8 then 0x201#12 else 0x001#12)
            records := s.events.records.drop (if s.events.records.length = 8 then 1 else 0) ++
              [{ tag := e.tag, print := e.pass.isSome, outcome := .done
                 fired := (e.pass.map Pass.dotsFired).getD 0
                 suppressed := (e.pass.map Pass.dotsSuppressed).getD 0
                 lost := (e.pass.map Pass.dotsLost).getD 0
                 sweeps := (e.pass.map Pass.sweeps).getD 0
                 time := s.time.ms, y := s.paper.y }] } })
    ∧ (∀ e s, goesOn e s =
      { s with
        paper := { s.paper with state := .idle, park := none, motion := none }
        runner :=
          if e.pass.isSome then { s.runner with phase := .prep, point := .skipCheck }
          else { s.runner with phase := .advance } })
    ∧ (∀ d s, (s.runner.phase ≠ .retract ∨ held s = true ∨ clearHoming s = true
          ∨ (s.carriage.state = .braking ∧ s.carriage.brake = some .halt) →
          parked d s = { s with paper := { s.paper with state := .tearParked, park := some d, motion := none } })
      ∧ (s.runner.phase = .retract → held s = false → clearHoming s = false →
          (s.carriage.state = .braking → s.carriage.brake ≠ some .halt) →
          (0 < d → parked d s =
            { s with
              paper :=
                { s.paper with
                  state := .retracting, park := none
                  motion := some
                    { purpose := .retract, distance := -(d : Int), moved := 0, path := (activeProfile s).path
                      stop := none } } })
          ∧ (d = 0 → ∀ e rest, s.queue = e :: rest → parked d s = goesOn e s)))
    ∧ (∀ (s : State) (m : Motion), s.paper.motion = some m → m.stop = none →
      (m.moved ≠ m.distance.natAbs → exec .paperMotionComplete s = .next s)
      ∧ (m.moved = m.distance.natAbs →
        (∀ tag e rest, m.purpose = .entryAdvance tag → s.queue = e :: rest → s.events.records.length ≤ 8 →
            exec .paperMotionComplete s = .next (settleTear (retired e rest s)))
        ∧ (m.purpose = .tear → exec .paperMotionComplete s = .next (settleTear (parked m.moved
            { s with events := { s.events with latched := s.events.latched ||| 0x100#12 } })))
        ∧ (m.purpose = .skip → exec .paperMotionComplete s = .next (settleTear
            { s with
              paper := { s.paper with state := .idle, park := none, motion := none }
              runner :=
                if skipNeeded (activeProfile s) s.paper.y then { s.runner with point := .skipCheck }
                else if s.runner.headPlan = none then { s.runner with point := .mask }
                else { s.runner with phase := .position } }))
        ∧ (∀ e rest, m.purpose = .retract → s.queue = e :: rest →
            exec .paperMotionComplete s = .next (settleTear (goesOn e s)))))
    ∧ (∀ (s : State) (m : Motion) (x : PaperStop), s.paper.motion = some m → m.stop = some x →
      (m.purpose = .skip ∨ (x.cause = .abort ∧ ∃ tag, m.purpose = .entryAdvance tag)
          ∨ (x.cause = .abort ∧ m.purpose = .retract ∧ m.distance.natAbs ≤ m.moved) →
        exec .paperMotionComplete s = .next (settleTear
          { s with paper := { s.paper with state := .idle, park := none, motion := none } }))
      ∧ (∀ tag e rest left, x.cause = .fault → m.purpose = .entryAdvance tag → s.queue = e :: rest →
          left = m.distance - (if 0 < m.distance then (m.moved : Int) else -m.moved) →
          (left ≠ 0 → exec .paperMotionComplete s = .next (settleTear
            { s with
              paper := { s.paper with state := .idle, park := none, motion := none }
              queue := { e with remaining := some left } :: rest }))
          ∧ (left = 0 → s.events.records.length ≤ 8 →
            exec .paperMotionComplete s = .next (settleTear (retired e rest s))))
      ∧ (m.purpose = .tear → exec .paperMotionComplete s = .next (settleTear (parked m.moved
          { s with events := { s.events with latched := s.events.latched ||| 0x100#12 } })))
      ∧ (m.purpose = .retract → m.moved < m.distance.natAbs →
          exec .paperMotionComplete s = .next (settleTear (parked (m.distance.natAbs - m.moved) s)))
      ∧ (∀ e rest, x.cause = .fault → m.purpose = .retract → m.distance.natAbs ≤ m.moved → s.queue = e :: rest →
          exec .paperMotionComplete s = .next (settleTear (goesOn e s))))

/-! ## Queue Runner -/

/-- TAKE_UP of a READY head with nothing holding the runner and no ABORT waiting. A print entry becomes ACTIVE and an
advance entry ADVANCING, taking over a look-ahead plan made for it. With the paper neither parked nor being parked its
first phase is PREP or ADVANCE; with it parked it is RETRACT and the retract of the whole park is ordered; with a tear
advance in flight it is RETRACT and the order waits; a park of distance 0 is retracted at once with no motion, and the
entry goes on. The first order of PREP, or of an advance entry that no carriage motion keeps waiting, is due from the
take-up on. Under a hold, or with the head still OPEN, nothing is taken up. TAKE_UP of a head already in RETRACT, its
paper parked and nothing holding the runner, gives the retract of what is parked. That TAKE_UP also gives the owed retract
rests on log entry 13, that a fault-stopped motion does not keep the take-up itself waiting on log entry 18, and the field
that holds the due order on log entry 25. -/
def Obligations.TakeUpStartsHead : Prop :=
  ∀ (s : State) (e : Entry) (rest : List Entry), s.queue = e :: rest →
    (e.state = .ready → s.runner.pause = false → s.runner.fault = none → s.pins.coverOpen = false →
      s.runner.homingOwed = false → (∀ h, s.carriage.homing = some h → h.source ≠ .clearFault) →
      s.runner.abortPending = false →
      ∃ taken : State, taken =
          { s with
            queue := { e with state := if e.pass.isSome then .active else .advancing } :: rest
            runner :=
              { s.runner with
                headPlan := s.runner.lookAhead.filter (fun p => p.tag == e.tag)
                lookAhead := s.runner.lookAhead.filter (fun p => p.tag != e.tag) } }
        ∧ (s.paper.state = .idle ∨ s.paper.state = .out → exec .takeUp s = .next
            { taken with
              runner :=
                if e.pass.isSome then { taken.runner with phase := .prep, point := .skipCheck, firstOrderDue := true }
                else
                  { taken.runner with
                    phase := .advance
                    firstOrderDue := decide (s.carriage.state = .idle ∨ s.carriage.state = .unhomed
                      ∨ (s.carriage.state = .approach ∧ s.runner.lookAhead ≠ none)) } })
        ∧ (∀ d, s.paper.state = .tearParked → s.paper.park = some d → faultStopping s = false →
          (0 < d → exec .takeUp s = .next
            { taken with
              runner := { taken.runner with phase := .retract, firstOrderDue := false }
              paper :=
                { s.paper with
                  state := .retracting, park := none
                  motion := some
                    { purpose := .retract, distance := -(d : Int), moved := 0, path := (activeProfile s).path
                      stop := none } } })
          ∧ (d = 0 → exec .takeUp s = .next
            { taken with
              runner :=
                if e.pass.isSome then { taken.runner with phase := .prep, point := .skipCheck, firstOrderDue := false }
                else { taken.runner with phase := .advance, firstOrderDue := false }
              paper := { s.paper with state := .idle, park := none, motion := none } }))
        ∧ (∀ m, s.paper.state = .advancing → s.paper.motion = some m → m.purpose = .tear → exec .takeUp s = .next
            { taken with runner := { taken.runner with phase := .retract, firstOrderDue := false } }))
    ∧ (e.state = .opened ∨ s.runner.pause = true ∨ s.runner.fault ≠ none ∨ s.pins.coverOpen = true
        ∨ s.runner.abortPending = true →
      s.runner.phase ≠ .retract → exec .takeUp s = .next s)
    ∧ (∀ d, e.state ≠ .ready → s.runner.phase = .retract → s.paper.state = .tearParked → s.paper.park = some d →
      (runnerFree s = false → exec .takeUp s = .next s)
      ∧ (runnerFree s = true → 0 < d → exec .takeUp s = .next
        { s with
          paper :=
            { s.paper with
              state := .retracting, park := none
              motion := some
                { purpose := .retract, distance := -(d : Int), moved := 0, path := (activeProfile s).path
                  stop := none } } })
      ∧ (runnerFree s = true → d = 0 → exec .takeUp s = .next
        { s with
          paper := { s.paper with state := .idle, park := none, motion := none }
          runner :=
            if e.pass.isSome then { s.runner with phase := .prep, point := .skipCheck }
            else { s.runner with phase := .advance } }))

/-- PREP of a print entry at its skip check, with no paper motion in flight. A skip is called for when skip is enabled and
Y < T or Y + 46 ≥ L − S; its distance is (T − Y) mod L. Called for, it is ordered when nothing holds the runner, or, under a
hold, as the first order of a take-up that came before the hold; else it waits; with PE at 0 the order is stopped as it is
taken. Not called for, PREP ends: an entry with a plan goes to POSITION and another is to be masked.

MASKING of a head entry without masks while PE is not 0: row r joins the suppressed set when its form row (Y + 2r) mod L
lies in a band or the tail has passed it, the suppressed dots are counted, and every other dot becomes outstanding, so that
suppressed and outstanding together are the dots held. With nothing to fire the entry goes to ADVANCE, else to its heat
check. There is something to fire when a channel has an outstanding column at or beyond its resume
column. An entry that holds masks keeps them; while PE is 0 an entry without masks waits.
Which of these points a head entry stands at is held in the model's field `point` (log entry 12), and whether the first order
of a take-up is still due in `firstOrderDue` (log entry 25). -/
def Obligations.PrepAndMasking : Prop :=
  (∀ (s : State) (e : Entry) (rest : List Entry) (p : Pass), s.queue = e :: rest → e.state = .active →
      e.pass = some p → s.runner.phase = .prep → s.runner.point = .skipCheck →
      s.paper.state = .idle ∨ s.paper.state = .out ∨ s.paper.state = .tearParked →
      ∃ needed : Prop,
        (needed ↔ (activeProfile s).skipOn = true ∧ (s.paper.y < (activeProfile s).top
          ∨ ((activeProfile s).length : Int) - (activeProfile s).skip ≤ s.paper.y + 46))
        ∧ (¬needed → s.runner.headPlan = none →
            exec .prep s = .next { s with runner := { s.runner with point := .mask, firstOrderDue := false } })
        ∧ (∀ plan, ¬needed → s.runner.headPlan = some plan →
            exec .prep s = .next { s with runner := { s.runner with phase := .position, firstOrderDue := false } })
        ∧ (needed → held s = true → s.runner.firstOrderDue = false → exec .prep s = .next s)
        ∧ (∀ d : Int, needed → recovering s = false → s.runner.firstOrderDue = true ∨ held s = false →
            d = ((activeProfile s).top - (s.paper.y : Int)) % (activeProfile s).length → 0 < d →
            (s.paper.pe ≠ some 0 → exec .prep s = .next
              { s with
                paper :=
                  { s.paper with
                    state := .advancing, park := none
                    motion := some
                      { purpose := .skip, distance := d, moved := 0, path := (activeProfile s).path, stop := none } }
                runner := { s.runner with firstOrderDue := false } })
            ∧ (s.paper.pe = some 0 → exec .prep s = .next
              { s with
                paper := { s.paper with state := .out, park := none, motion := none }
                runner := { s.runner with pause := true, firstOrderDue := false }
                events := { s.events with latched := s.events.latched ||| 0x080#12 } })))
  ∧ (∀ (s : State) (e : Entry) (rest : List Entry) (p : Pass), s.queue = e :: rest → e.state = .active →
      e.pass = some p → s.runner.phase = .prep → s.runner.point = .mask →
      (p.suppressed = none → s.paper.pe = some 0 → exec .masking s = .next s)
      ∧ (p.suppressed = none → s.paper.pe ≠ some 0 →
        ∃ rows p' runner', p' = { p with suppressed := some rows, dotsSuppressed := dotsIn s.pool p rows }
          ∧ exec .masking s = .next { s with queue := { e with pass := some p' } :: rest, runner := runner' }
          ∧ (∀ r, r < 24 → (rows.getLsbD r = true ↔
              (∃ b ∈ (activeProfile s).bands, b.top ≤ (s.paper.y + 2 * r) % (activeProfile s).length
                ∧ (s.paper.y + 2 * r) % (activeProfile s).length < b.top + b.height)
              ∨ (∃ n, s.paper.pe = some n ∧ n ≤ 2 * r)))
          ∧ ((∀ c, c < p.span → (passColumn s.pool p c).fired = 0#24 ∧ (passColumn s.pool p c).lost = 0#24) →
              p'.dotsSuppressed + ((List.range p.span).map (fun c => rowCount (outstanding s.pool p' c))).sum
                = dotsHeld s.pool p)
          ∧ (hasWork s.pool p' = true → runner' = { s.runner with point := .heat })
          ∧ (hasWork s.pool p' = false → runner' = { s.runner with phase := .advance, point := .skipCheck }))
      ∧ (∀ rows, p.suppressed = some rows →
        ∃ runner', exec .masking s = .next { s with runner := runner' }
          ∧ (hasWork s.pool p = true → runner' = { s.runner with point := .heat })
          ∧ (hasWork s.pool p = false → runner' = { s.runner with phase := .advance, point := .skipCheck })))
  ∧ (∀ (pool : Pool) (p : Pass), p.dir ≠ none ∨ (p.resumeA = none ∧ p.resumeB = none) →
      (hasWork pool p = true ↔ ∃ ch c, p.start ≤ c ∧ c < p.start + p.span ∧ chanOutstanding pool p ch c ≠ 0#24
        ∧ (match (match ch with | .a => p.resumeA | .b => p.resumeB), p.dir with
          | none, _ => True
          | some .done, _ => False
          | some (.column k), some .fwd => k ≤ c
          | some (.column k), some .rev => c ≤ k
          | some (.column _), none => False)))

/-- In a state whose forms are sound a skip that is called for has a distance of 1..L−1, and at the Y it leaves, T, no skip is
called for again.

A form feed always moves the paper forward by 1..L feed units and leaves Y at the top margin; from there it moves a whole
form. -/
def Obligations.SkipAndFormFeedReachTheirMark : Prop :=
  (∀ s : State, formSound s = true → skipNeeded (activeProfile s) s.paper.y = true →
      1 ≤ skipDistance (activeProfile s) s.paper.y
      ∧ skipDistance (activeProfile s) s.paper.y < (activeProfile s).length
      ∧ ((s.paper.y : Int) + skipDistance (activeProfile s) s.paper.y) % (activeProfile s).length = (activeProfile s).top
      ∧ skipNeeded (activeProfile s) (activeProfile s).top = false)
  ∧ (∀ (prof : Profile) (y : Nat), prof.top < prof.length → y < prof.length →
      1 ≤ formFeedDistance prof y ∧ formFeedDistance prof y ≤ prof.length
      ∧ ((y : Int) + formFeedDistance prof y) % prof.length = prof.top
      ∧ (y = prof.top → formFeedDistance prof y = prof.length))

/-- HEAT_CHECK reads Hmax once: 5120 or more sends the head entry to COOL_WAIT and less to POSITION, out of COOL_WAIT only
below 4096. It is made of an entry that comes from masking, of one that goes on from SUSPENDED, in the phase SWEEP, and of one
in POSITION without a plan; a HALTED entry becomes ACTIVE as the check begins, once nothing holds the runner and the carriage
is at rest.
RESUME_SUSPENDED: a SUSPENDED head becomes ACTIVE when nothing holds the runner and, after a thermal suspend, Hmax is below
3072; its heat check follows when it has work left, its advance when not. It has when a channel has an outstanding column at or
beyond its resume column.
Which of these checks holds wait for is the model's reading (log entries 12, 18). -/
def Obligations.HeatChecksAndResumes : Prop :=
  (∀ (s : State) (e : Entry) (rest : List Entry) (p : Pass), s.queue = e :: rest → e.pass = some p →
    ((e.state = .active ∧
          ((s.runner.point = .heat ∧ (s.runner.phase = .prep ∨ s.runner.phase = .sweep)) ∨ s.runner.phase = .coolWait
            ∨ (s.runner.phase = .position ∧ s.runner.headPlan = none ∧ carriageAtRest s = true)))
        ∨ (e.state = .halted ∧ s.runner.phase = .sweep ∧ runnerFree s = true ∧ carriageAtRest s = true) →
      ∃ limit, limit = (if s.runner.phase = .coolWait then 4096 else 5120)
        ∧ exec .heatCheck s = .next
          { s with
            queue := { e with state := .active } :: rest
            runner := { s.runner with
              point := .skipCheck, phase := if hmax s < limit then .position else .coolWait } })
    ∧ (∀ reason, e.state = .suspended → s.runner.suspend = some reason →
      (runnerFree s = true → reason = .hold ∨ hmax s < 3072 →
        exec .resumeSuspended s = .next
          { s with
            queue := { e with state := .active } :: rest
            runner :=
              if hasWork s.pool p then { s.runner with suspend := none, point := .heat }
              else { s.runner with suspend := none, phase := .advance, point := .skipCheck } })
      ∧ (held s = true ∨ (reason = .thermal ∧ 3072 ≤ hmax s) → exec .resumeSuspended s = .next s)))
  ∧ (∀ (pool : Pool) (p : Pass), p.dir ≠ none ∨ (p.resumeA = none ∧ p.resumeB = none) →
      (hasWork pool p = true ↔ ∃ ch c, p.start ≤ c ∧ c < p.start + p.span ∧ chanOutstanding pool p ch c ≠ 0#24
        ∧ (match (match ch with | .a => p.resumeA | .b => p.resumeB), p.dir with
          | none, _ => True
          | some .done, _ => False
          | some (.column k), some .fwd => k ≤ c
          | some (.column k), some .rev => c ≤ k
          | some (.column _), none => False)))

/-- POSITION of an ACTIVE head without a plan, with nothing holding the runner, the carriage at rest and the driver idle: an
invalid position is homed on the runner's behalf; with a valid one, a plan that is made is held, its direction is written to
the entry, and the approach to its start is ordered (complete at once where the carriage stands there); nothing to fire goes
to ADVANCE and a head too hot to COOL_WAIT.
That the runner waits for an idle driver rests on log entry 18. -/
def Obligations.PositionHomesOrPlans : Prop :=
  ∀ (s : State) (e : Entry) (rest : List Entry) (p : Pass), s.queue = e :: rest → e.state = .active →
    e.pass = some p → s.runner.phase = .position → s.runner.headPlan = none → runnerFree s = true →
    s.carriage.state = .idle ∨ s.carriage.state = .unhomed → driverIdle s = true →
    (s.carriage.pos = none → exec .position s = .next
      { s with
        carriage :=
          { s.carriage with
            state := .homing, pos := none, drive := .on
            homing := some
              { source := .runner, stage := if s.pins.homeCovered then .clearing else .seek, travel := 0 } }
        time := { s.time with stall := some 20, tearIdle := none } })
    ∧ (∀ place, s.carriage.pos = some place →
      (planSweep s e.tag p place = .noColumn →
        exec .position s = .next { s with runner := { s.runner with phase := .advance } })
      ∧ (planSweep s e.tag p place = .tooHot →
        exec .position s = .next { s with runner := { s.runner with phase := .coolWait } })
      ∧ (∀ plan, planSweep s e.tag p place = .made plan →
        ∃ planned : State, planned =
            { s with
              queue := { e with pass := some { p with dir := some plan.dir } } :: rest
              runner := { s.runner with headPlan := some plan } }
          ∧ (plan.start.toNat = place → exec .position s = .next planned)
          ∧ (plan.start.toNat ≠ place → exec .position s = .next
            { planned with
              carriage :=
                { s.carriage with state := .approach, drive := .on, target := some plan.start.toNat }
              time := { s.time with stall := some 20 } })))

/-- Planning finds nothing to fire exactly when no channel has an outstanding column at or beyond its resume column; it finds
the head too hot exactly when one has and Hmax is 5120 or more; and else it makes a plan. The column pitch is 24, 12 or 6
counts at D60, D120 and D240.

A plan made in a state whose configuration and pass are sound: its start and end lie within the travel, its grade is at
most the phase, adjacency, speed and heat caps, its lead and run-up are those of the grade, a direction the entry holds is
kept, and every element is a column of the pass that is outstanding for its channel, at the firing position of R2.

Of an entry never planned, or planned again in its direction, at least one list is not empty; each list holds every
outstanding column of its channel at or beyond the resume column, in sweep order; start and end are the first and the last
firing position less and plus R_G; the adjacency cap is 1 exactly at D240 with a row in two adjacent columns of a list; the
grade is the cap grade or the highest below it whose extent fits the travel; and a first sweep takes its direction from the
profile, the preference, and, for ANY, the start nearer to P at the cap grade, FWD when both are as near. -/
def Obligations.PlansFitTravelAndCaps : Prop :=
  (∀ (s : State) (tag : Byte) (p : Pass) (place : Nat), p.dir ≠ none ∨ (p.resumeA = none ∧ p.resumeB = none) →
    ∃ work : Prop,
      (work ↔ ∃ ch c, p.start ≤ c ∧ c < p.start + p.span ∧ chanOutstanding s.pool p ch c ≠ 0#24
        ∧ (match (match ch with | .a => p.resumeA | .b => p.resumeB), p.dir with
          | none, _ => True
          | some .done, _ => False
          | some (.column k), some .fwd => k ≤ c
          | some (.column k), some .rev => c ≤ k
          | some (.column _), none => False))
      ∧ (planSweep s tag p place = .noColumn ↔ ¬work)
      ∧ (planSweep s tag p place = .tooHot ↔ work ∧ 5120 ≤ hmax s)
      ∧ ((∃ plan, planSweep s tag p place = .made plan) ↔ work ∧ hmax s < 5120))
  ∧ Density.d60.pitch = 24 ∧ Density.d120.pitch = 12 ∧ Density.d240.pitch = 6
  ∧ ∀ (s : State) (tag : Byte) (p : Pass) (place : Nat) (plan : Plan), mechSound s = true → passSound p = true →
    planSweep s tag p place = .made plan →
    plan.tag = tag
    ∧ 0 ≤ plan.start ∧ plan.start ≤ 21599 ∧ 0 ≤ plan.stop ∧ plan.stop ≤ 21599
    ∧ plan.grade ≤ 3
    ∧ plan.grade ≤ 25 * p.density.pitch / (36 * s.mech.phaseCount) - 1
    ∧ plan.grade ≤ (activeProfile s).cap
    ∧ hmax s < 5120 ∧ (2048 ≤ hmax s → plan.grade ≤ 2) ∧ (3072 ≤ hmax s → plan.grade ≤ 1)
    ∧ (4096 ≤ hmax s → plan.grade = 0)
    ∧ plan.lead = s.mech.leads.getD plan.grade 0
    ∧ plan.runUp = [120, 240, 480, 720].getD plan.grade 720
    ∧ (p.dir ≠ none ∨ (p.resumeA = none ∧ p.resumeB = none) → plan.listA ≠ [] ∨ plan.listB ≠ [])
    ∧ (∀ d, p.dir = some d → plan.dir = d)
    ∧ (∀ x ∈ plan.listA, p.start ≤ x.column ∧ x.column < p.start + p.span
        ∧ chanOutstanding s.pool p .a x.column ≠ 0#24
        ∧ x.pos = s.mech.origin + x.column * p.density.pitch
            + (if plan.dir = .fwd then -(plan.lead : Int) else plan.lead))
    ∧ (∀ x ∈ plan.listB, p.start ≤ x.column ∧ x.column < p.start + p.span
        ∧ chanOutstanding s.pool p .b x.column ≠ 0#24
        ∧ x.pos = s.mech.origin + x.column * p.density.pitch - 36
            + (if plan.dir = .fwd then -(plan.lead : Int) else plan.lead))
    ∧ (p.dir ≠ none ∨ (p.resumeA = none ∧ p.resumeB = none) →
      ∃ (due : Chan → Dir → Nat → Prop) (pos : Chan → Dir → Nat → Nat → Int) (runUp : Nat → Int)
        (first last : Dir → Nat → Int → Prop) (adjacency cap : Nat),
        (∀ ch dir c, due ch dir c ↔ p.start ≤ c ∧ c < p.start + p.span ∧ chanOutstanding s.pool p ch c ≠ 0#24
          ∧ (match (match ch with | .a => p.resumeA | .b => p.resumeB), dir with
            | none, _ => True
            | some .done, _ => False
            | some (.column k), .fwd => k ≤ c
            | some (.column k), .rev => c ≤ k))
        ∧ (∀ ch dir g c, pos ch dir g c = s.mech.origin + c * p.density.pitch - (if ch = .a then 0 else 36)
            + (if dir = .fwd then -(s.mech.leads.getD g 0 : Int) else s.mech.leads.getD g 0))
        ∧ (∀ g, runUp g = ([120, 240, 480, 720].getD g 720 : Nat))
        ∧ (∀ dir g f, first dir g f ↔ (∃ ch c, due ch dir c ∧ f = pos ch dir g c)
            ∧ ∀ ch c, due ch dir c → if dir = .fwd then f ≤ pos ch dir g c else pos ch dir g c ≤ f)
        ∧ (∀ dir g f, last dir g f ↔ (∃ ch c, due ch dir c ∧ f = pos ch dir g c)
            ∧ ∀ ch c, due ch dir c → if dir = .fwd then pos ch dir g c ≤ f else f ≤ pos ch dir g c)
        ∧ (∀ c, (∃ x ∈ plan.listA, x.column = c) ↔ due .a plan.dir c)
        ∧ (∀ c, (∃ x ∈ plan.listB, x.column = c) ↔ due .b plan.dir c)
        ∧ plan.listA.Pairwise (fun x y => if plan.dir = .fwd then x.column < y.column else y.column < x.column)
        ∧ plan.listB.Pairwise (fun x y => if plan.dir = .fwd then x.column < y.column else y.column < x.column)
        ∧ (∃ f l, first plan.dir plan.grade f ∧ last plan.dir plan.grade l
            ∧ plan.start = (if plan.dir = .fwd then f - plan.runUp else f + plan.runUp)
            ∧ plan.stop = (if plan.dir = .fwd then l + plan.runUp else l - plan.runUp))
        ∧ ((adjacency = 1 ∧ p.density = .d240
              ∧ ∃ ch c r, due ch plan.dir c ∧ due ch plan.dir (c + 1)
                ∧ (chanOutstanding s.pool p ch c).getLsbD r = true
                ∧ (chanOutstanding s.pool p ch (c + 1)).getLsbD r = true)
            ∨ (adjacency = 3
              ∧ ¬(p.density = .d240
                ∧ ∃ ch c r, due ch plan.dir c ∧ due ch plan.dir (c + 1)
                  ∧ (chanOutstanding s.pool p ch c).getLsbD r = true
                  ∧ (chanOutstanding s.pool p ch (c + 1)).getLsbD r = true)))
        ∧ cap = min (min (min 3 (25 * p.density.pitch / (36 * s.mech.phaseCount) - 1)) adjacency)
            (min (activeProfile s).cap
              (if hmax s < 2048 then 3 else if hmax s < 3072 then 2 else if hmax s < 4096 then 1 else 0))
        ∧ plan.grade ≤ cap
        ∧ (∀ g, plan.grade < g → g ≤ cap → ∀ f l, first plan.dir g f → last plan.dir g l →
            ¬(if plan.dir = .fwd then 0 ≤ f - runUp g ∧ l + runUp g ≤ 21599
              else 0 ≤ l - runUp g ∧ f + runUp g ≤ 21599))
        ∧ (p.dir = none →
          ((activeProfile s).bidir = false → plan.dir = .fwd)
          ∧ ((activeProfile s).bidir = true → p.pref = .fwd → plan.dir = .fwd)
          ∧ ((activeProfile s).bidir = true → p.pref = .rev → plan.dir = .rev)
          ∧ (∀ sf sr, (activeProfile s).bidir = true → p.pref = .any → first .fwd cap (sf + runUp cap) →
              first .rev cap (sr - runUp cap) →
              plan.dir = if ((place : Int) - sr).natAbs < ((place : Int) - sf).natAbs then .rev else .fwd)))

/-- SWEEP_ORDER with the approach ended and nothing holding the runner. At the plan's start the sweep order is given: RUNUP,
both channels loaded unarmed, the head phase SWEEP. A carriage that stands elsewhere is approached afresh with the same plan;
with the position invalid the plan is dropped. Under a hold the plan is kept and nothing moves. -/
def Obligations.SweepOrderGivesRunUp : Prop :=
  ∀ (s : State) (e : Entry) (rest : List Entry) (p : Pass) (plan : Plan), s.queue = e :: rest → e.state = .active →
    e.pass = some p → s.runner.phase = .position → s.runner.headPlan = some plan →
    s.paper.state = .idle ∨ s.paper.state = .out ∨ s.paper.state = .tearParked →
    (held s = true → exec .sweepOrder s = .next s)
    ∧ (runnerFree s = true → s.carriage.state = .idle ∨ s.carriage.state = .unhomed →
      (s.carriage.pos = none →
        exec .sweepOrder s = .next { s with runner := { s.runner with headPlan := none } })
      ∧ (∀ place : Nat, s.carriage.pos = some place → plan.start = place → exec .sweepOrder s = .next
        { s with
          runner := { s.runner with phase := .sweep, headPlan := none }
          carriage :=
            { s.carriage with
              state := .runup, drive := .on, plan := some plan
              chanA := { list := plan.listA, next := 0, armed := false }
              chanB := { list := plan.listB, next := 0, armed := false } }
          time := { s.time with stall := some 20 } })
      ∧ (∀ place : Nat, s.carriage.pos = some place → plan.start ≠ place → 0 ≤ plan.start →
        exec .sweepOrder s = .next
        { s with
          carriage := { s.carriage with state := .approach, drive := .on, target := some plan.start.toNat }
          time := { s.time with stall := some 20 } }))

/-- ADVANCE_ORDER and ADVANCE_ENTRY_ORDER with nothing holding the runner, the carriage at rest and no paper motion in flight:
the entry is ADVANCING and its remaining advance is ordered, or else its distance, or a form feed turned into
(T − Y) mod L, L when that is 0. An advance entry's first order is given also under a hold that came after its take-up, and
its order also during the approach of a look-ahead plan. A distance of 0 retires the entry as it is taken; a forward order at
PE 0 is stopped as it is taken, leaving OUT, the pause flag and the whole distance as the remaining advance. Under a hold no
other order is given; and a print entry with an outstanding dot, one in an outstanding
column of a channel, is given none in any state.
The field that holds the due first order is the model's (log entry 25). -/
def Obligations.AdvanceOrdersGiven : Prop :=
  (∀ (c : Instr) (s : State) (e : Entry) (rest : List Entry) (d : Int), s.queue = e :: rest →
    s.runner.phase = .advance →
    s.paper.state = .idle ∨ s.paper.state = .out ∨ s.paper.state = .tearParked →
    (c = .advanceOrder ∧ (∃ p, e.pass = some p ∧ anyOutstanding s.pool p = false)
        ∧ (e.state = .active ∨ e.state = .advancing))
      ∨ (c = .advanceEntryOrder ∧ e.pass = none ∧ e.state = .advancing) →
    d = (match e.remaining, e.advance with
      | some n, _ => n
      | none, .distance n => n
      | none, .formFeed =>
        if (((activeProfile s).top : Int) - s.paper.y) % (activeProfile s).length = 0 then
          ((activeProfile s).length : Int)
        else (((activeProfile s).top : Int) - s.paper.y) % (activeProfile s).length) →
    (held s = true → c = .advanceOrder ∨ s.runner.firstOrderDue = false → exec c s = .next s)
    ∧ (recovering s = false → held s = false ∨ (c = .advanceEntryOrder ∧ s.runner.firstOrderDue = true) →
      (s.carriage.state = .idle ∨ s.carriage.state = .unhomed)
        ∨ (c = .advanceEntryOrder ∧ s.carriage.state = .approach ∧ s.runner.lookAhead ≠ none) →
      (0 < d → s.paper.pe ≠ some 0 → exec c s = .next
        { s with
          queue := { e with state := .advancing } :: rest
          paper :=
            { s.paper with
              state := .advancing, park := none
              motion := some
                { purpose := .entryAdvance e.tag, distance := d, moved := 0, path := (activeProfile s).path
                  stop := none } }
          runner := { s.runner with firstOrderDue := false }
          time := { s.time with tearIdle := none } })
      ∧ (d < 0 → exec c s = .next
        { s with
          queue := { e with state := .advancing } :: rest
          paper :=
            { s.paper with
              state := .retracting, park := none
              motion := some
                { purpose := .entryAdvance e.tag, distance := d, moved := 0, path := (activeProfile s).path
                  stop := none } }
          runner := { s.runner with firstOrderDue := false }
          time := { s.time with tearIdle := none } })
      ∧ (0 < d → s.paper.pe = some 0 → exec c s = .next
        { s with
          queue := { e with state := .advancing, remaining := some d } :: rest
          paper := { s.paper with state := .out, park := none, motion := none }
          runner := { s.runner with pause := true, firstOrderDue := false }
          events := { s.events with latched := s.events.latched ||| 0x080#12 }
          time := { s.time with tearIdle := none } })
      ∧ (d = 0 → ∃ t, exec c s = .next t ∧ t.queue = rest ∧ t.pool = s.pool.releaseAll e.slots
          ∧ t.runner.phase = .noPhase ∧ t.paper = s.paper ∧ t.carriage = s.carriage)))
  ∧ (∀ (s : State) (e : Entry) (rest : List Entry) (p : Pass), s.queue = e :: rest → e.pass = some p →
      anyOutstanding s.pool p = true → exec .advanceOrder s = .next s)
  ∧ (∀ (pool : Pool) (p : Pass), anyOutstanding pool p = true ↔ ∃ ch c, chanOutstanding pool p ch c ≠ 0#24)

/-- LOOK_AHEAD_PLAN while the head's advance is in flight: when every condition of R150 holds and a plan results, the next
entry's masks, counted against the offset and the countdown the advance will leave, and its direction are written, the plan is
held, and the approach is ordered; the entry stays READY. When the skip check, the masks or the heat forbid it, nothing is
written. The masks leave something to fire when a channel has an outstanding column. -/
def Obligations.LookAheadPlansNextEntry : Prop :=
  (∀ (s : State) (h e : Entry) (rest : List Entry) (p : Pass) (m : Motion) (tag : Byte) (place : Nat) (left : Int),
    s.queue = h :: e :: rest → h.state = .advancing → e.state = .ready → e.pass = some p →
    s.paper.motion = some m → m.purpose = .entryAdvance tag →
    s.paper.state = .advancing ∨ s.paper.state = .retracting →
    left = m.distance - (if 0 < m.distance then (m.moved : Int) else -m.moved) →
    s.carriage.state = .idle → s.carriage.pos = some place → s.runner.lookAhead = none → runnerFree s = true →
    ∃ (y : Nat) (pe : Option Nat) (masked : Pass),
      y = ((((s.paper.y : Int) + left) % (activeProfile s).length).toNat)
      ∧ pe = s.paper.pe.map (fun k => (max 0 (min 540 ((k : Int) - left))).toNat)
      ∧ masked = (if p.suppressed = none then
          { p with
            suppressed := some (suppressedRows (activeProfile s) y pe)
            dotsSuppressed := dotsIn s.pool p (suppressedRows (activeProfile s) y pe) }
        else p)
      ∧ (skipNeeded (activeProfile s) y = true ∨ anyOutstanding s.pool masked = false ∨ 5120 ≤ hmax s →
          exec .lookAheadPlan s = .next s)
      ∧ (∀ plan, skipNeeded (activeProfile s) y = false → anyOutstanding s.pool masked = true → hmax s < 5120 →
          planSweep s e.tag masked place = .made plan →
          ∃ planned : State, planned =
              { s with
                queue := h :: { e with pass := some { masked with dir := some plan.dir } } :: rest
                runner := { s.runner with lookAhead := some plan } }
            ∧ (plan.start.toNat = place → exec .lookAheadPlan s = .next planned)
            ∧ (plan.start.toNat ≠ place → exec .lookAheadPlan s = .next
              { planned with
                carriage :=
                  { s.carriage with state := .approach, drive := .on, target := some plan.start.toNat }
                time := { s.time with stall := some 20 } })))
  ∧ (∀ (pool : Pool) (p : Pass), anyOutstanding pool p = true ↔ ∃ ch c, chanOutstanding pool p ch c ≠ 0#24)

/-! ## Invariants -/

/-- The state after power-on reset is sound in every respect, and its tear timer runs exactly while it is called for. -/
def Obligations.ResetIsSound : Prop :=
  fifoSound State.reset = true ∧ assemblerSound State.reset = true ∧ recordsSound State.reset = true
  ∧ queueSound State.reset = true ∧ headOnlySound State.reset = true ∧ poolSound State.reset = true
  ∧ dotsSound State.reset = true ∧ heatSound State.reset = true ∧ positionSound State.reset = true
  ∧ carriageSound State.reset = true ∧ paperSound State.reset = true ∧ mechSound State.reset = true
  ∧ pinMapSound State.reset = true ∧ formSound State.reset = true ∧ maskSound State.reset = true
  ∧ State.reset.time.tearIdle.isSome = tearReady State.reset

/-- Every step keeps the Link Port in order: at most two replies, and an assembler whose buffer, length and byte-gap timer
agree with its state. -/
def Obligations.StepKeepsLinkSound : Prop :=
  ∀ s t : State, fifoSound s = true → assemblerSound s = true → step s = .next t →
    fifoSound t = true ∧ assemblerSound t = true

/-- Every step keeps the queue at 8 entries or fewer with distinct tags and at most one OPEN, only its head ever started, and
the completion list at 8 records or fewer. -/
def Obligations.StepKeepsQueueSound : Prop :=
  ∀ s t : State, queueSound s = true → headOnlySound s = true → recordsSound s = true → step s = .next t →
    queueSound t = true ∧ headOnlySound t = true ∧ recordsSound t = true

/-- Every step keeps the pool: canonical cells, and each of the 128 blocks either free or held by one slot of one queued
entry. Every step keeps the account of the dots, in which no dot is fired or lost twice. In a state with that account a dot of
a queued print entry bears at most one mark, the entry's counters are the counts of its marks, all 0 before its masks are
fixed, and from then on the dots suppressed, outstanding, fired and lost add up to the dots it holds. -/
def Obligations.StepKeepsPoolConserved : Prop :=
  (∀ s t : State, queueSound s = true → poolSound s = true → step s = .next t → poolSound t = true)
  ∧ (∀ s t : State, queueSound s = true → poolSound s = true → paperSound s = true → dotsSound s = true →
      step s = .next t → dotsSound t = true)
  ∧ (∀ (s : State) (e : Entry) (p : Pass) (count : (Column → Rows) → Nat), dotsSound s = true → e ∈ s.queue →
      e.pass = some p → (∀ f, count f = ((List.range p.span).map (fun c => rowCount (f (passColumn s.pool p c)))).sum) →
      (∀ c, c < p.span → (passColumn s.pool p c).fired &&& (passColumn s.pool p c).lost = 0#24
        ∧ ((passColumn s.pool p c).fired ||| (passColumn s.pool p c).lost) &&& ~~~(passColumn s.pool p c).dots = 0#24)
      ∧ p.dotsFired = count Column.fired ∧ p.dotsLost = count Column.lost
      ∧ (p.suppressed = none → p.dotsFired = 0 ∧ p.dotsSuppressed = 0 ∧ p.dotsLost = 0)
      ∧ (∀ sup, p.suppressed = some sup →
        p.dotsSuppressed = count (fun c => c.dots &&& sup)
        ∧ p.dotsSuppressed + count (fun c => c.dots &&& ~~~sup &&& ~~~c.fired &&& ~~~c.lost) + p.dotsFired
            + p.dotsLost = count Column.dots))

/-- Every step keeps the table of R45: the validity and range of P, the drive, and the motion in hand agree with the carriage
state.

CAR_EN is on while the drive moves or brakes the carriage: throughout RUNUP and SWEEP, never at rest. While it is on, CAR_DIR
is right in homing's clearing move and left in its seek, towards 360 in the park move and towards the target in an approach,
and the plan's direction in a run-up and a sweep. -/
def Obligations.StepKeepsCarriageSound : Prop :=
  (∀ s t : State, carriageSound s = true → positionSound s = true → step s = .next t →
    carriageSound t = true ∧ positionSound t = true)
  ∧ (∀ s : State, (carEn s = true ↔ s.carriage.drive = .on)
    ∧ (carriageSound s = true →
      (s.carriage.state = .unhomed ∨ s.carriage.state = .idle → carEn s = false)
      ∧ (s.carriage.state = .runup ∨ s.carriage.state = .sweep →
          carEn s = true ∧ ∃ pl, s.carriage.plan = some pl ∧ carDir s = some pl.dir)
      ∧ (∀ h, s.carriage.state = .homing → s.carriage.homing = some h → carEn s = true →
        (h.stage = .clearing → carDir s = some .fwd) ∧ (h.stage = .seek → carDir s = some .rev)
        ∧ ∀ p, h.stage = .park → s.carriage.pos = some p →
          (p < 360 → carDir s = some .fwd) ∧ (360 < p → carDir s = some .rev))
      ∧ (s.carriage.state = .approach → carEn s = true → ∃ p goal, s.carriage.pos = some p ∧ s.carriage.target = some goal
        ∧ (p < goal → carDir s = some .fwd) ∧ (goal < p → carDir s = some .rev))))

/-- Every step keeps the paper record: the paper state agrees with the motion and the park, no motion overruns its distance
nor a ramp-down its bound, OUT has PE at 0, PE stays within 0..540 and a within 0..2, and while RESET_N is low the queue is
empty and the paper stands without a park. -/
def Obligations.StepKeepsPaperSound : Prop :=
  ∀ s t : State, paperSound s = true → step s = .next t → paperSound t = true

/-- Every step keeps the held configuration in its ranges: the mechanical configuration, the pin map, the attention mask, the
forms with Y on the active form, and the heat values. -/
def Obligations.StepKeepsConfigurationSound : Prop :=
  ∀ s t : State, mechSound s = true → pinMapSound s = true → maskSound s = true → formSound s = true →
    heatSound s = true → step s = .next t →
    mechSound t = true ∧ pinMapSound t = true ∧ maskSound t = true ∧ formSound t = true ∧ heatSound t = true
end

