-- ==== Sys2Proof/Laws/State.lean ====
section
/-! SUPPORT. One lemma per field per update of State: the block an update sets is the one given, and every other block is
unchanged. -/

namespace Sys2Proof.Machine

/-! ### setLink -/

@[simp] theorem setLink_link (s : State) (x : Link) : (s.setLink x).link = x := rfl
@[simp] theorem setLink_mech (s : State) (x : Link) : (s.setLink x).mech = s.mech := rfl
@[simp] theorem setLink_queue (s : State) (x : Link) : (s.setLink x).queue = s.queue := rfl
@[simp] theorem setLink_pool (s : State) (x : Link) : (s.setLink x).pool = s.pool := rfl
@[simp] theorem setLink_runner (s : State) (x : Link) : (s.setLink x).runner = s.runner := rfl
@[simp] theorem setLink_carriage (s : State) (x : Link) : (s.setLink x).carriage = s.carriage := rfl
@[simp] theorem setLink_driver (s : State) (x : Link) : (s.setLink x).driver = s.driver := rfl
@[simp] theorem setLink_heat (s : State) (x : Link) : (s.setLink x).heat = s.heat := rfl
@[simp] theorem setLink_paper (s : State) (x : Link) : (s.setLink x).paper = s.paper := rfl
@[simp] theorem setLink_forms (s : State) (x : Link) : (s.setLink x).forms = s.forms := rfl
@[simp] theorem setLink_events (s : State) (x : Link) : (s.setLink x).events = s.events := rfl
@[simp] theorem setLink_time (s : State) (x : Link) : (s.setLink x).time = s.time := rfl
@[simp] theorem setLink_pins (s : State) (x : Link) : (s.setLink x).pins = s.pins := rfl
@[simp] theorem setLink_outputs (s : State) (x : Link) : (s.setLink x).outputs = s.outputs := rfl
@[simp] theorem setLink_pending (s : State) (x : Link) : (s.setLink x).pending = s.pending := rfl
@[simp] theorem setLink_self (s : State) : s.setLink s.link = s := rfl
@[simp] theorem setLink_setLink (s : State) (x y : Link) :
    (s.setLink x).setLink y = s.setLink y := rfl

/-! ### setMech -/

@[simp] theorem setMech_link (s : State) (x : Mech) : (s.setMech x).link = s.link := rfl
@[simp] theorem setMech_mech (s : State) (x : Mech) : (s.setMech x).mech = x := rfl
@[simp] theorem setMech_queue (s : State) (x : Mech) : (s.setMech x).queue = s.queue := rfl
@[simp] theorem setMech_pool (s : State) (x : Mech) : (s.setMech x).pool = s.pool := rfl
@[simp] theorem setMech_runner (s : State) (x : Mech) : (s.setMech x).runner = s.runner := rfl
@[simp] theorem setMech_carriage (s : State) (x : Mech) : (s.setMech x).carriage = s.carriage := rfl
@[simp] theorem setMech_driver (s : State) (x : Mech) : (s.setMech x).driver = s.driver := rfl
@[simp] theorem setMech_heat (s : State) (x : Mech) : (s.setMech x).heat = s.heat := rfl
@[simp] theorem setMech_paper (s : State) (x : Mech) : (s.setMech x).paper = s.paper := rfl
@[simp] theorem setMech_forms (s : State) (x : Mech) : (s.setMech x).forms = s.forms := rfl
@[simp] theorem setMech_events (s : State) (x : Mech) : (s.setMech x).events = s.events := rfl
@[simp] theorem setMech_time (s : State) (x : Mech) : (s.setMech x).time = s.time := rfl
@[simp] theorem setMech_pins (s : State) (x : Mech) : (s.setMech x).pins = s.pins := rfl
@[simp] theorem setMech_outputs (s : State) (x : Mech) : (s.setMech x).outputs = s.outputs := rfl
@[simp] theorem setMech_pending (s : State) (x : Mech) : (s.setMech x).pending = s.pending := rfl
@[simp] theorem setMech_self (s : State) : s.setMech s.mech = s := rfl
@[simp] theorem setMech_setMech (s : State) (x y : Mech) :
    (s.setMech x).setMech y = s.setMech y := rfl

/-! ### setQueue -/

@[simp] theorem setQueue_link (s : State) (x : List Entry) : (s.setQueue x).link = s.link := rfl
@[simp] theorem setQueue_mech (s : State) (x : List Entry) : (s.setQueue x).mech = s.mech := rfl
@[simp] theorem setQueue_queue (s : State) (x : List Entry) : (s.setQueue x).queue = x := rfl
@[simp] theorem setQueue_pool (s : State) (x : List Entry) : (s.setQueue x).pool = s.pool := rfl
@[simp] theorem setQueue_runner (s : State) (x : List Entry) : (s.setQueue x).runner = s.runner := rfl
@[simp] theorem setQueue_carriage (s : State) (x : List Entry) : (s.setQueue x).carriage = s.carriage := rfl
@[simp] theorem setQueue_driver (s : State) (x : List Entry) : (s.setQueue x).driver = s.driver := rfl
@[simp] theorem setQueue_heat (s : State) (x : List Entry) : (s.setQueue x).heat = s.heat := rfl
@[simp] theorem setQueue_paper (s : State) (x : List Entry) : (s.setQueue x).paper = s.paper := rfl
@[simp] theorem setQueue_forms (s : State) (x : List Entry) : (s.setQueue x).forms = s.forms := rfl
@[simp] theorem setQueue_events (s : State) (x : List Entry) : (s.setQueue x).events = s.events := rfl
@[simp] theorem setQueue_time (s : State) (x : List Entry) : (s.setQueue x).time = s.time := rfl
@[simp] theorem setQueue_pins (s : State) (x : List Entry) : (s.setQueue x).pins = s.pins := rfl
@[simp] theorem setQueue_outputs (s : State) (x : List Entry) : (s.setQueue x).outputs = s.outputs := rfl
@[simp] theorem setQueue_pending (s : State) (x : List Entry) : (s.setQueue x).pending = s.pending := rfl
@[simp] theorem setQueue_self (s : State) : s.setQueue s.queue = s := rfl
@[simp] theorem setQueue_setQueue (s : State) (x y : List Entry) :
    (s.setQueue x).setQueue y = s.setQueue y := rfl

/-! ### setPool -/

@[simp] theorem setPool_link (s : State) (x : Pool) : (s.setPool x).link = s.link := rfl
@[simp] theorem setPool_mech (s : State) (x : Pool) : (s.setPool x).mech = s.mech := rfl
@[simp] theorem setPool_queue (s : State) (x : Pool) : (s.setPool x).queue = s.queue := rfl
@[simp] theorem setPool_pool (s : State) (x : Pool) : (s.setPool x).pool = x := rfl
@[simp] theorem setPool_runner (s : State) (x : Pool) : (s.setPool x).runner = s.runner := rfl
@[simp] theorem setPool_carriage (s : State) (x : Pool) : (s.setPool x).carriage = s.carriage := rfl
@[simp] theorem setPool_driver (s : State) (x : Pool) : (s.setPool x).driver = s.driver := rfl
@[simp] theorem setPool_heat (s : State) (x : Pool) : (s.setPool x).heat = s.heat := rfl
@[simp] theorem setPool_paper (s : State) (x : Pool) : (s.setPool x).paper = s.paper := rfl
@[simp] theorem setPool_forms (s : State) (x : Pool) : (s.setPool x).forms = s.forms := rfl
@[simp] theorem setPool_events (s : State) (x : Pool) : (s.setPool x).events = s.events := rfl
@[simp] theorem setPool_time (s : State) (x : Pool) : (s.setPool x).time = s.time := rfl
@[simp] theorem setPool_pins (s : State) (x : Pool) : (s.setPool x).pins = s.pins := rfl
@[simp] theorem setPool_outputs (s : State) (x : Pool) : (s.setPool x).outputs = s.outputs := rfl
@[simp] theorem setPool_pending (s : State) (x : Pool) : (s.setPool x).pending = s.pending := rfl
@[simp] theorem setPool_self (s : State) : s.setPool s.pool = s := rfl
@[simp] theorem setPool_setPool (s : State) (x y : Pool) :
    (s.setPool x).setPool y = s.setPool y := rfl

/-! ### setRunner -/

@[simp] theorem setRunner_link (s : State) (x : Runner) : (s.setRunner x).link = s.link := rfl
@[simp] theorem setRunner_mech (s : State) (x : Runner) : (s.setRunner x).mech = s.mech := rfl
@[simp] theorem setRunner_queue (s : State) (x : Runner) : (s.setRunner x).queue = s.queue := rfl
@[simp] theorem setRunner_pool (s : State) (x : Runner) : (s.setRunner x).pool = s.pool := rfl
@[simp] theorem setRunner_runner (s : State) (x : Runner) : (s.setRunner x).runner = x := rfl
@[simp] theorem setRunner_carriage (s : State) (x : Runner) : (s.setRunner x).carriage = s.carriage := rfl
@[simp] theorem setRunner_driver (s : State) (x : Runner) : (s.setRunner x).driver = s.driver := rfl
@[simp] theorem setRunner_heat (s : State) (x : Runner) : (s.setRunner x).heat = s.heat := rfl
@[simp] theorem setRunner_paper (s : State) (x : Runner) : (s.setRunner x).paper = s.paper := rfl
@[simp] theorem setRunner_forms (s : State) (x : Runner) : (s.setRunner x).forms = s.forms := rfl
@[simp] theorem setRunner_events (s : State) (x : Runner) : (s.setRunner x).events = s.events := rfl
@[simp] theorem setRunner_time (s : State) (x : Runner) : (s.setRunner x).time = s.time := rfl
@[simp] theorem setRunner_pins (s : State) (x : Runner) : (s.setRunner x).pins = s.pins := rfl
@[simp] theorem setRunner_outputs (s : State) (x : Runner) : (s.setRunner x).outputs = s.outputs := rfl
@[simp] theorem setRunner_pending (s : State) (x : Runner) : (s.setRunner x).pending = s.pending := rfl
@[simp] theorem setRunner_self (s : State) : s.setRunner s.runner = s := rfl
@[simp] theorem setRunner_setRunner (s : State) (x y : Runner) :
    (s.setRunner x).setRunner y = s.setRunner y := rfl

/-! ### setCarriage -/

@[simp] theorem setCarriage_link (s : State) (x : Carriage) : (s.setCarriage x).link = s.link := rfl
@[simp] theorem setCarriage_mech (s : State) (x : Carriage) : (s.setCarriage x).mech = s.mech := rfl
@[simp] theorem setCarriage_queue (s : State) (x : Carriage) : (s.setCarriage x).queue = s.queue := rfl
@[simp] theorem setCarriage_pool (s : State) (x : Carriage) : (s.setCarriage x).pool = s.pool := rfl
@[simp] theorem setCarriage_runner (s : State) (x : Carriage) : (s.setCarriage x).runner = s.runner := rfl
@[simp] theorem setCarriage_carriage (s : State) (x : Carriage) : (s.setCarriage x).carriage = x := rfl
@[simp] theorem setCarriage_driver (s : State) (x : Carriage) : (s.setCarriage x).driver = s.driver := rfl
@[simp] theorem setCarriage_heat (s : State) (x : Carriage) : (s.setCarriage x).heat = s.heat := rfl
@[simp] theorem setCarriage_paper (s : State) (x : Carriage) : (s.setCarriage x).paper = s.paper := rfl
@[simp] theorem setCarriage_forms (s : State) (x : Carriage) : (s.setCarriage x).forms = s.forms := rfl
@[simp] theorem setCarriage_events (s : State) (x : Carriage) : (s.setCarriage x).events = s.events := rfl
@[simp] theorem setCarriage_time (s : State) (x : Carriage) : (s.setCarriage x).time = s.time := rfl
@[simp] theorem setCarriage_pins (s : State) (x : Carriage) : (s.setCarriage x).pins = s.pins := rfl
@[simp] theorem setCarriage_outputs (s : State) (x : Carriage) : (s.setCarriage x).outputs = s.outputs := rfl
@[simp] theorem setCarriage_pending (s : State) (x : Carriage) : (s.setCarriage x).pending = s.pending := rfl
@[simp] theorem setCarriage_self (s : State) : s.setCarriage s.carriage = s := rfl
@[simp] theorem setCarriage_setCarriage (s : State) (x y : Carriage) :
    (s.setCarriage x).setCarriage y = s.setCarriage y := rfl

/-! ### setDriver -/

@[simp] theorem setDriver_link (s : State) (x : Driver) : (s.setDriver x).link = s.link := rfl
@[simp] theorem setDriver_mech (s : State) (x : Driver) : (s.setDriver x).mech = s.mech := rfl
@[simp] theorem setDriver_queue (s : State) (x : Driver) : (s.setDriver x).queue = s.queue := rfl
@[simp] theorem setDriver_pool (s : State) (x : Driver) : (s.setDriver x).pool = s.pool := rfl
@[simp] theorem setDriver_runner (s : State) (x : Driver) : (s.setDriver x).runner = s.runner := rfl
@[simp] theorem setDriver_carriage (s : State) (x : Driver) : (s.setDriver x).carriage = s.carriage := rfl
@[simp] theorem setDriver_driver (s : State) (x : Driver) : (s.setDriver x).driver = x := rfl
@[simp] theorem setDriver_heat (s : State) (x : Driver) : (s.setDriver x).heat = s.heat := rfl
@[simp] theorem setDriver_paper (s : State) (x : Driver) : (s.setDriver x).paper = s.paper := rfl
@[simp] theorem setDriver_forms (s : State) (x : Driver) : (s.setDriver x).forms = s.forms := rfl
@[simp] theorem setDriver_events (s : State) (x : Driver) : (s.setDriver x).events = s.events := rfl
@[simp] theorem setDriver_time (s : State) (x : Driver) : (s.setDriver x).time = s.time := rfl
@[simp] theorem setDriver_pins (s : State) (x : Driver) : (s.setDriver x).pins = s.pins := rfl
@[simp] theorem setDriver_outputs (s : State) (x : Driver) : (s.setDriver x).outputs = s.outputs := rfl
@[simp] theorem setDriver_pending (s : State) (x : Driver) : (s.setDriver x).pending = s.pending := rfl
@[simp] theorem setDriver_self (s : State) : s.setDriver s.driver = s := rfl
@[simp] theorem setDriver_setDriver (s : State) (x y : Driver) :
    (s.setDriver x).setDriver y = s.setDriver y := rfl

/-! ### setHeat -/

@[simp] theorem setHeat_link (s : State) (x : List Nat) : (s.setHeat x).link = s.link := rfl
@[simp] theorem setHeat_mech (s : State) (x : List Nat) : (s.setHeat x).mech = s.mech := rfl
@[simp] theorem setHeat_queue (s : State) (x : List Nat) : (s.setHeat x).queue = s.queue := rfl
@[simp] theorem setHeat_pool (s : State) (x : List Nat) : (s.setHeat x).pool = s.pool := rfl
@[simp] theorem setHeat_runner (s : State) (x : List Nat) : (s.setHeat x).runner = s.runner := rfl
@[simp] theorem setHeat_carriage (s : State) (x : List Nat) : (s.setHeat x).carriage = s.carriage := rfl
@[simp] theorem setHeat_driver (s : State) (x : List Nat) : (s.setHeat x).driver = s.driver := rfl
@[simp] theorem setHeat_heat (s : State) (x : List Nat) : (s.setHeat x).heat = x := rfl
@[simp] theorem setHeat_paper (s : State) (x : List Nat) : (s.setHeat x).paper = s.paper := rfl
@[simp] theorem setHeat_forms (s : State) (x : List Nat) : (s.setHeat x).forms = s.forms := rfl
@[simp] theorem setHeat_events (s : State) (x : List Nat) : (s.setHeat x).events = s.events := rfl
@[simp] theorem setHeat_time (s : State) (x : List Nat) : (s.setHeat x).time = s.time := rfl
@[simp] theorem setHeat_pins (s : State) (x : List Nat) : (s.setHeat x).pins = s.pins := rfl
@[simp] theorem setHeat_outputs (s : State) (x : List Nat) : (s.setHeat x).outputs = s.outputs := rfl
@[simp] theorem setHeat_pending (s : State) (x : List Nat) : (s.setHeat x).pending = s.pending := rfl
@[simp] theorem setHeat_self (s : State) : s.setHeat s.heat = s := rfl
@[simp] theorem setHeat_setHeat (s : State) (x y : List Nat) :
    (s.setHeat x).setHeat y = s.setHeat y := rfl

/-! ### setPaper -/

@[simp] theorem setPaper_link (s : State) (x : Paper) : (s.setPaper x).link = s.link := rfl
@[simp] theorem setPaper_mech (s : State) (x : Paper) : (s.setPaper x).mech = s.mech := rfl
@[simp] theorem setPaper_queue (s : State) (x : Paper) : (s.setPaper x).queue = s.queue := rfl
@[simp] theorem setPaper_pool (s : State) (x : Paper) : (s.setPaper x).pool = s.pool := rfl
@[simp] theorem setPaper_runner (s : State) (x : Paper) : (s.setPaper x).runner = s.runner := rfl
@[simp] theorem setPaper_carriage (s : State) (x : Paper) : (s.setPaper x).carriage = s.carriage := rfl
@[simp] theorem setPaper_driver (s : State) (x : Paper) : (s.setPaper x).driver = s.driver := rfl
@[simp] theorem setPaper_heat (s : State) (x : Paper) : (s.setPaper x).heat = s.heat := rfl
@[simp] theorem setPaper_paper (s : State) (x : Paper) : (s.setPaper x).paper = x := rfl
@[simp] theorem setPaper_forms (s : State) (x : Paper) : (s.setPaper x).forms = s.forms := rfl
@[simp] theorem setPaper_events (s : State) (x : Paper) : (s.setPaper x).events = s.events := rfl
@[simp] theorem setPaper_time (s : State) (x : Paper) : (s.setPaper x).time = s.time := rfl
@[simp] theorem setPaper_pins (s : State) (x : Paper) : (s.setPaper x).pins = s.pins := rfl
@[simp] theorem setPaper_outputs (s : State) (x : Paper) : (s.setPaper x).outputs = s.outputs := rfl
@[simp] theorem setPaper_pending (s : State) (x : Paper) : (s.setPaper x).pending = s.pending := rfl
@[simp] theorem setPaper_self (s : State) : s.setPaper s.paper = s := rfl
@[simp] theorem setPaper_setPaper (s : State) (x y : Paper) :
    (s.setPaper x).setPaper y = s.setPaper y := rfl

/-! ### setForms -/

@[simp] theorem setForms_link (s : State) (x : Forms) : (s.setForms x).link = s.link := rfl
@[simp] theorem setForms_mech (s : State) (x : Forms) : (s.setForms x).mech = s.mech := rfl
@[simp] theorem setForms_queue (s : State) (x : Forms) : (s.setForms x).queue = s.queue := rfl
@[simp] theorem setForms_pool (s : State) (x : Forms) : (s.setForms x).pool = s.pool := rfl
@[simp] theorem setForms_runner (s : State) (x : Forms) : (s.setForms x).runner = s.runner := rfl
@[simp] theorem setForms_carriage (s : State) (x : Forms) : (s.setForms x).carriage = s.carriage := rfl
@[simp] theorem setForms_driver (s : State) (x : Forms) : (s.setForms x).driver = s.driver := rfl
@[simp] theorem setForms_heat (s : State) (x : Forms) : (s.setForms x).heat = s.heat := rfl
@[simp] theorem setForms_paper (s : State) (x : Forms) : (s.setForms x).paper = s.paper := rfl
@[simp] theorem setForms_forms (s : State) (x : Forms) : (s.setForms x).forms = x := rfl
@[simp] theorem setForms_events (s : State) (x : Forms) : (s.setForms x).events = s.events := rfl
@[simp] theorem setForms_time (s : State) (x : Forms) : (s.setForms x).time = s.time := rfl
@[simp] theorem setForms_pins (s : State) (x : Forms) : (s.setForms x).pins = s.pins := rfl
@[simp] theorem setForms_outputs (s : State) (x : Forms) : (s.setForms x).outputs = s.outputs := rfl
@[simp] theorem setForms_pending (s : State) (x : Forms) : (s.setForms x).pending = s.pending := rfl
@[simp] theorem setForms_self (s : State) : s.setForms s.forms = s := rfl
@[simp] theorem setForms_setForms (s : State) (x y : Forms) :
    (s.setForms x).setForms y = s.setForms y := rfl

/-! ### setEvents -/

@[simp] theorem setEvents_link (s : State) (x : Events) : (s.setEvents x).link = s.link := rfl
@[simp] theorem setEvents_mech (s : State) (x : Events) : (s.setEvents x).mech = s.mech := rfl
@[simp] theorem setEvents_queue (s : State) (x : Events) : (s.setEvents x).queue = s.queue := rfl
@[simp] theorem setEvents_pool (s : State) (x : Events) : (s.setEvents x).pool = s.pool := rfl
@[simp] theorem setEvents_runner (s : State) (x : Events) : (s.setEvents x).runner = s.runner := rfl
@[simp] theorem setEvents_carriage (s : State) (x : Events) : (s.setEvents x).carriage = s.carriage := rfl
@[simp] theorem setEvents_driver (s : State) (x : Events) : (s.setEvents x).driver = s.driver := rfl
@[simp] theorem setEvents_heat (s : State) (x : Events) : (s.setEvents x).heat = s.heat := rfl
@[simp] theorem setEvents_paper (s : State) (x : Events) : (s.setEvents x).paper = s.paper := rfl
@[simp] theorem setEvents_forms (s : State) (x : Events) : (s.setEvents x).forms = s.forms := rfl
@[simp] theorem setEvents_events (s : State) (x : Events) : (s.setEvents x).events = x := rfl
@[simp] theorem setEvents_time (s : State) (x : Events) : (s.setEvents x).time = s.time := rfl
@[simp] theorem setEvents_pins (s : State) (x : Events) : (s.setEvents x).pins = s.pins := rfl
@[simp] theorem setEvents_outputs (s : State) (x : Events) : (s.setEvents x).outputs = s.outputs := rfl
@[simp] theorem setEvents_pending (s : State) (x : Events) : (s.setEvents x).pending = s.pending := rfl
@[simp] theorem setEvents_self (s : State) : s.setEvents s.events = s := rfl
@[simp] theorem setEvents_setEvents (s : State) (x y : Events) :
    (s.setEvents x).setEvents y = s.setEvents y := rfl

/-! ### setTime -/

@[simp] theorem setTime_link (s : State) (x : TimeBase) : (s.setTime x).link = s.link := rfl
@[simp] theorem setTime_mech (s : State) (x : TimeBase) : (s.setTime x).mech = s.mech := rfl
@[simp] theorem setTime_queue (s : State) (x : TimeBase) : (s.setTime x).queue = s.queue := rfl
@[simp] theorem setTime_pool (s : State) (x : TimeBase) : (s.setTime x).pool = s.pool := rfl
@[simp] theorem setTime_runner (s : State) (x : TimeBase) : (s.setTime x).runner = s.runner := rfl
@[simp] theorem setTime_carriage (s : State) (x : TimeBase) : (s.setTime x).carriage = s.carriage := rfl
@[simp] theorem setTime_driver (s : State) (x : TimeBase) : (s.setTime x).driver = s.driver := rfl
@[simp] theorem setTime_heat (s : State) (x : TimeBase) : (s.setTime x).heat = s.heat := rfl
@[simp] theorem setTime_paper (s : State) (x : TimeBase) : (s.setTime x).paper = s.paper := rfl
@[simp] theorem setTime_forms (s : State) (x : TimeBase) : (s.setTime x).forms = s.forms := rfl
@[simp] theorem setTime_events (s : State) (x : TimeBase) : (s.setTime x).events = s.events := rfl
@[simp] theorem setTime_time (s : State) (x : TimeBase) : (s.setTime x).time = x := rfl
@[simp] theorem setTime_pins (s : State) (x : TimeBase) : (s.setTime x).pins = s.pins := rfl
@[simp] theorem setTime_outputs (s : State) (x : TimeBase) : (s.setTime x).outputs = s.outputs := rfl
@[simp] theorem setTime_pending (s : State) (x : TimeBase) : (s.setTime x).pending = s.pending := rfl
@[simp] theorem setTime_self (s : State) : s.setTime s.time = s := rfl
@[simp] theorem setTime_setTime (s : State) (x y : TimeBase) :
    (s.setTime x).setTime y = s.setTime y := rfl

/-! ### setPins -/

@[simp] theorem setPins_link (s : State) (x : Pins) : (s.setPins x).link = s.link := rfl
@[simp] theorem setPins_mech (s : State) (x : Pins) : (s.setPins x).mech = s.mech := rfl
@[simp] theorem setPins_queue (s : State) (x : Pins) : (s.setPins x).queue = s.queue := rfl
@[simp] theorem setPins_pool (s : State) (x : Pins) : (s.setPins x).pool = s.pool := rfl
@[simp] theorem setPins_runner (s : State) (x : Pins) : (s.setPins x).runner = s.runner := rfl
@[simp] theorem setPins_carriage (s : State) (x : Pins) : (s.setPins x).carriage = s.carriage := rfl
@[simp] theorem setPins_driver (s : State) (x : Pins) : (s.setPins x).driver = s.driver := rfl
@[simp] theorem setPins_heat (s : State) (x : Pins) : (s.setPins x).heat = s.heat := rfl
@[simp] theorem setPins_paper (s : State) (x : Pins) : (s.setPins x).paper = s.paper := rfl
@[simp] theorem setPins_forms (s : State) (x : Pins) : (s.setPins x).forms = s.forms := rfl
@[simp] theorem setPins_events (s : State) (x : Pins) : (s.setPins x).events = s.events := rfl
@[simp] theorem setPins_time (s : State) (x : Pins) : (s.setPins x).time = s.time := rfl
@[simp] theorem setPins_pins (s : State) (x : Pins) : (s.setPins x).pins = x := rfl
@[simp] theorem setPins_outputs (s : State) (x : Pins) : (s.setPins x).outputs = s.outputs := rfl
@[simp] theorem setPins_pending (s : State) (x : Pins) : (s.setPins x).pending = s.pending := rfl
@[simp] theorem setPins_self (s : State) : s.setPins s.pins = s := rfl
@[simp] theorem setPins_setPins (s : State) (x y : Pins) :
    (s.setPins x).setPins y = s.setPins y := rfl

/-! ### setOutputs -/

@[simp] theorem setOutputs_link (s : State) (x : Outputs) : (s.setOutputs x).link = s.link := rfl
@[simp] theorem setOutputs_mech (s : State) (x : Outputs) : (s.setOutputs x).mech = s.mech := rfl
@[simp] theorem setOutputs_queue (s : State) (x : Outputs) : (s.setOutputs x).queue = s.queue := rfl
@[simp] theorem setOutputs_pool (s : State) (x : Outputs) : (s.setOutputs x).pool = s.pool := rfl
@[simp] theorem setOutputs_runner (s : State) (x : Outputs) : (s.setOutputs x).runner = s.runner := rfl
@[simp] theorem setOutputs_carriage (s : State) (x : Outputs) : (s.setOutputs x).carriage = s.carriage := rfl
@[simp] theorem setOutputs_driver (s : State) (x : Outputs) : (s.setOutputs x).driver = s.driver := rfl
@[simp] theorem setOutputs_heat (s : State) (x : Outputs) : (s.setOutputs x).heat = s.heat := rfl
@[simp] theorem setOutputs_paper (s : State) (x : Outputs) : (s.setOutputs x).paper = s.paper := rfl
@[simp] theorem setOutputs_forms (s : State) (x : Outputs) : (s.setOutputs x).forms = s.forms := rfl
@[simp] theorem setOutputs_events (s : State) (x : Outputs) : (s.setOutputs x).events = s.events := rfl
@[simp] theorem setOutputs_time (s : State) (x : Outputs) : (s.setOutputs x).time = s.time := rfl
@[simp] theorem setOutputs_pins (s : State) (x : Outputs) : (s.setOutputs x).pins = s.pins := rfl
@[simp] theorem setOutputs_outputs (s : State) (x : Outputs) : (s.setOutputs x).outputs = x := rfl
@[simp] theorem setOutputs_pending (s : State) (x : Outputs) : (s.setOutputs x).pending = s.pending := rfl
@[simp] theorem setOutputs_self (s : State) : s.setOutputs s.outputs = s := rfl
@[simp] theorem setOutputs_setOutputs (s : State) (x y : Outputs) :
    (s.setOutputs x).setOutputs y = s.setOutputs y := rfl

/-! ### setPending -/

@[simp] theorem setPending_link (s : State) (x : List Instr) : (s.setPending x).link = s.link := rfl
@[simp] theorem setPending_mech (s : State) (x : List Instr) : (s.setPending x).mech = s.mech := rfl
@[simp] theorem setPending_queue (s : State) (x : List Instr) : (s.setPending x).queue = s.queue := rfl
@[simp] theorem setPending_pool (s : State) (x : List Instr) : (s.setPending x).pool = s.pool := rfl
@[simp] theorem setPending_runner (s : State) (x : List Instr) : (s.setPending x).runner = s.runner := rfl
@[simp] theorem setPending_carriage (s : State) (x : List Instr) : (s.setPending x).carriage = s.carriage := rfl
@[simp] theorem setPending_driver (s : State) (x : List Instr) : (s.setPending x).driver = s.driver := rfl
@[simp] theorem setPending_heat (s : State) (x : List Instr) : (s.setPending x).heat = s.heat := rfl
@[simp] theorem setPending_paper (s : State) (x : List Instr) : (s.setPending x).paper = s.paper := rfl
@[simp] theorem setPending_forms (s : State) (x : List Instr) : (s.setPending x).forms = s.forms := rfl
@[simp] theorem setPending_events (s : State) (x : List Instr) : (s.setPending x).events = s.events := rfl
@[simp] theorem setPending_time (s : State) (x : List Instr) : (s.setPending x).time = s.time := rfl
@[simp] theorem setPending_pins (s : State) (x : List Instr) : (s.setPending x).pins = s.pins := rfl
@[simp] theorem setPending_outputs (s : State) (x : List Instr) : (s.setPending x).outputs = s.outputs := rfl
@[simp] theorem setPending_pending (s : State) (x : List Instr) : (s.setPending x).pending = x := rfl
@[simp] theorem setPending_self (s : State) : s.setPending s.pending = s := rfl
@[simp] theorem setPending_setPending (s : State) (x y : List Instr) :
    (s.setPending x).setPending y = s.setPending y := rfl

end Sys2Proof.Machine
end

