-- ==== Sys2Proof/Laws/Frames.lean ====
section
/-! SUPPORT. Frames: for each shared operation, each act of a command and each request's owner, the blocks of the state it
leaves unchanged. -/

namespace Sys2Proof.Machine

/-! ## Machine/Ops.lean -/

@[simp] theorem latch_frame (e : Event) (s : State) :
    (latch e s).link = s.link ∧ (latch e s).mech = s.mech ∧ (latch e s).queue = s.queue ∧ (latch e s).pool = s.pool ∧
    (latch e s).runner = s.runner ∧ (latch e s).carriage = s.carriage ∧ (latch e s).driver = s.driver ∧
    (latch e s).heat = s.heat ∧ (latch e s).paper = s.paper ∧ (latch e s).forms = s.forms ∧
    (latch e s).time = s.time ∧ (latch e s).pins = s.pins ∧ (latch e s).outputs = s.outputs ∧
    (latch e s).pending = s.pending := by
  simp [latch]

@[simp] theorem pushRecord_frame (c : Completion) (s : State) :
    (pushRecord c s).link = s.link ∧ (pushRecord c s).mech = s.mech ∧ (pushRecord c s).queue = s.queue ∧
    (pushRecord c s).pool = s.pool ∧ (pushRecord c s).runner = s.runner ∧ (pushRecord c s).carriage = s.carriage ∧
    (pushRecord c s).driver = s.driver ∧ (pushRecord c s).heat = s.heat ∧ (pushRecord c s).paper = s.paper ∧
    (pushRecord c s).forms = s.forms ∧ (pushRecord c s).time = s.time ∧ (pushRecord c s).pins = s.pins ∧
    (pushRecord c s).outputs = s.outputs ∧ (pushRecord c s).pending = s.pending := by
  unfold pushRecord; split <;> simp

@[simp] theorem mapHead_frame (f : Entry → Entry) (s : State) :
    (mapHead f s).link = s.link ∧ (mapHead f s).mech = s.mech ∧ (mapHead f s).pool = s.pool ∧
    (mapHead f s).runner = s.runner ∧ (mapHead f s).carriage = s.carriage ∧ (mapHead f s).driver = s.driver ∧
    (mapHead f s).heat = s.heat ∧ (mapHead f s).paper = s.paper ∧ (mapHead f s).forms = s.forms ∧
    (mapHead f s).events = s.events ∧ (mapHead f s).time = s.time ∧ (mapHead f s).pins = s.pins ∧
    (mapHead f s).outputs = s.outputs ∧ (mapHead f s).pending = s.pending := by
  unfold mapHead; split <;> simp

@[simp] theorem mapHeadPass_frame (f : Pass → Pass) (s : State) :
    (mapHeadPass f s).link = s.link ∧ (mapHeadPass f s).mech = s.mech ∧ (mapHeadPass f s).pool = s.pool ∧
    (mapHeadPass f s).runner = s.runner ∧ (mapHeadPass f s).carriage = s.carriage ∧
    (mapHeadPass f s).driver = s.driver ∧ (mapHeadPass f s).heat = s.heat ∧ (mapHeadPass f s).paper = s.paper ∧
    (mapHeadPass f s).forms = s.forms ∧ (mapHeadPass f s).events = s.events ∧ (mapHeadPass f s).time = s.time ∧
    (mapHeadPass f s).pins = s.pins ∧ (mapHeadPass f s).outputs = s.outputs ∧
    (mapHeadPass f s).pending = s.pending := by
  simp [mapHeadPass]

@[simp] theorem setHeadState_frame (st : EntryState) (s : State) :
    (setHeadState st s).link = s.link ∧ (setHeadState st s).mech = s.mech ∧ (setHeadState st s).pool = s.pool ∧
    (setHeadState st s).runner = s.runner ∧ (setHeadState st s).carriage = s.carriage ∧
    (setHeadState st s).driver = s.driver ∧ (setHeadState st s).heat = s.heat ∧ (setHeadState st s).paper = s.paper ∧
    (setHeadState st s).forms = s.forms ∧ (setHeadState st s).events = s.events ∧ (setHeadState st s).time = s.time ∧
    (setHeadState st s).pins = s.pins ∧ (setHeadState st s).outputs = s.outputs ∧
    (setHeadState st s).pending = s.pending := by
  simp [setHeadState]

@[simp] theorem freeEntry_frame (e : Entry) (s : State) :
    (freeEntry e s).link = s.link ∧ (freeEntry e s).mech = s.mech ∧ (freeEntry e s).queue = s.queue ∧
    (freeEntry e s).runner = s.runner ∧ (freeEntry e s).carriage = s.carriage ∧ (freeEntry e s).driver = s.driver ∧
    (freeEntry e s).heat = s.heat ∧ (freeEntry e s).paper = s.paper ∧ (freeEntry e s).forms = s.forms ∧
    (freeEntry e s).events = s.events ∧ (freeEntry e s).time = s.time ∧ (freeEntry e s).pins = s.pins ∧
    (freeEntry e s).outputs = s.outputs ∧ (freeEntry e s).pending = s.pending := by
  simp [freeEntry]

@[simp] theorem freeEntries_frame (l : List Entry) (s : State) :
    (freeEntries l s).link = s.link ∧ (freeEntries l s).mech = s.mech ∧ (freeEntries l s).queue = s.queue ∧
    (freeEntries l s).runner = s.runner ∧ (freeEntries l s).carriage = s.carriage ∧
    (freeEntries l s).driver = s.driver ∧ (freeEntries l s).heat = s.heat ∧ (freeEntries l s).paper = s.paper ∧
    (freeEntries l s).forms = s.forms ∧ (freeEntries l s).events = s.events ∧ (freeEntries l s).time = s.time ∧
    (freeEntries l s).pins = s.pins ∧ (freeEntries l s).outputs = s.outputs ∧
    (freeEntries l s).pending = s.pending := by
  induction l generalizing s with
  | nil => simp [freeEntries]
  | cons e t ih => simp [freeEntries, ih]

@[simp] theorem updateHeadColumn_frame (c : Nat) (f : Column → Column) (s : State) :
    (updateHeadColumn c f s).link = s.link ∧ (updateHeadColumn c f s).mech = s.mech ∧
    (updateHeadColumn c f s).queue = s.queue ∧ (updateHeadColumn c f s).runner = s.runner ∧
    (updateHeadColumn c f s).carriage = s.carriage ∧ (updateHeadColumn c f s).driver = s.driver ∧
    (updateHeadColumn c f s).heat = s.heat ∧ (updateHeadColumn c f s).paper = s.paper ∧
    (updateHeadColumn c f s).forms = s.forms ∧ (updateHeadColumn c f s).events = s.events ∧
    (updateHeadColumn c f s).time = s.time ∧ (updateHeadColumn c f s).pins = s.pins ∧
    (updateHeadColumn c f s).outputs = s.outputs ∧ (updateHeadColumn c f s).pending = s.pending := by
  unfold updateHeadColumn; (repeat' split) <;> simp

@[simp] theorem startStall_frame (s : State) :
    (startStall s).link = s.link ∧ (startStall s).mech = s.mech ∧ (startStall s).queue = s.queue ∧
    (startStall s).pool = s.pool ∧ (startStall s).runner = s.runner ∧ (startStall s).carriage = s.carriage ∧
    (startStall s).driver = s.driver ∧ (startStall s).heat = s.heat ∧ (startStall s).paper = s.paper ∧
    (startStall s).forms = s.forms ∧ (startStall s).events = s.events ∧ (startStall s).pins = s.pins ∧
    (startStall s).outputs = s.outputs ∧ (startStall s).pending = s.pending := by
  simp [startStall]

@[simp] theorem stopStall_frame (s : State) :
    (stopStall s).link = s.link ∧ (stopStall s).mech = s.mech ∧ (stopStall s).queue = s.queue ∧
    (stopStall s).pool = s.pool ∧ (stopStall s).runner = s.runner ∧ (stopStall s).carriage = s.carriage ∧
    (stopStall s).driver = s.driver ∧ (stopStall s).heat = s.heat ∧ (stopStall s).paper = s.paper ∧
    (stopStall s).forms = s.forms ∧ (stopStall s).events = s.events ∧ (stopStall s).pins = s.pins ∧
    (stopStall s).outputs = s.outputs ∧ (stopStall s).pending = s.pending := by
  simp [stopStall]

@[simp] theorem startByteGap_frame (s : State) :
    (startByteGap s).link = s.link ∧ (startByteGap s).mech = s.mech ∧ (startByteGap s).queue = s.queue ∧
    (startByteGap s).pool = s.pool ∧ (startByteGap s).runner = s.runner ∧ (startByteGap s).carriage = s.carriage ∧
    (startByteGap s).driver = s.driver ∧ (startByteGap s).heat = s.heat ∧ (startByteGap s).paper = s.paper ∧
    (startByteGap s).forms = s.forms ∧ (startByteGap s).events = s.events ∧ (startByteGap s).pins = s.pins ∧
    (startByteGap s).outputs = s.outputs ∧ (startByteGap s).pending = s.pending := by
  simp [startByteGap]

@[simp] theorem stopByteGap_frame (s : State) :
    (stopByteGap s).link = s.link ∧ (stopByteGap s).mech = s.mech ∧ (stopByteGap s).queue = s.queue ∧
    (stopByteGap s).pool = s.pool ∧ (stopByteGap s).runner = s.runner ∧ (stopByteGap s).carriage = s.carriage ∧
    (stopByteGap s).driver = s.driver ∧ (stopByteGap s).heat = s.heat ∧ (stopByteGap s).paper = s.paper ∧
    (stopByteGap s).forms = s.forms ∧ (stopByteGap s).events = s.events ∧ (stopByteGap s).pins = s.pins ∧
    (stopByteGap s).outputs = s.outputs ∧ (stopByteGap s).pending = s.pending := by
  simp [stopByteGap]

@[simp] theorem stopWindow_frame (s : State) :
    (stopWindow s).link = s.link ∧ (stopWindow s).mech = s.mech ∧ (stopWindow s).queue = s.queue ∧
    (stopWindow s).pool = s.pool ∧ (stopWindow s).runner = s.runner ∧ (stopWindow s).carriage = s.carriage ∧
    (stopWindow s).driver = s.driver ∧ (stopWindow s).heat = s.heat ∧ (stopWindow s).paper = s.paper ∧
    (stopWindow s).forms = s.forms ∧ (stopWindow s).events = s.events ∧ (stopWindow s).pins = s.pins ∧
    (stopWindow s).outputs = s.outputs ∧ (stopWindow s).pending = s.pending := by
  simp [stopWindow]

@[simp] theorem settleTear_frame (s : State) :
    (settleTear s).link = s.link ∧ (settleTear s).mech = s.mech ∧ (settleTear s).queue = s.queue ∧
    (settleTear s).pool = s.pool ∧ (settleTear s).runner = s.runner ∧ (settleTear s).carriage = s.carriage ∧
    (settleTear s).driver = s.driver ∧ (settleTear s).heat = s.heat ∧ (settleTear s).paper = s.paper ∧
    (settleTear s).forms = s.forms ∧ (settleTear s).events = s.events ∧ (settleTear s).pins = s.pins ∧
    (settleTear s).outputs = s.outputs ∧ (settleTear s).pending = s.pending := by
  unfold settleTear; (repeat' split) <;> simp

@[simp] theorem stopTear_frame (s : State) :
    (stopTear s).link = s.link ∧ (stopTear s).mech = s.mech ∧ (stopTear s).queue = s.queue ∧
    (stopTear s).pool = s.pool ∧ (stopTear s).runner = s.runner ∧ (stopTear s).carriage = s.carriage ∧
    (stopTear s).driver = s.driver ∧ (stopTear s).heat = s.heat ∧ (stopTear s).paper = s.paper ∧
    (stopTear s).forms = s.forms ∧ (stopTear s).events = s.events ∧ (stopTear s).pins = s.pins ∧
    (stopTear s).outputs = s.outputs ∧ (stopTear s).pending = s.pending := by
  simp [stopTear]

@[simp] theorem firstOrderGiven_frame (s : State) :
    (firstOrderGiven s).link = s.link ∧ (firstOrderGiven s).mech = s.mech ∧ (firstOrderGiven s).queue = s.queue ∧
    (firstOrderGiven s).pool = s.pool ∧ (firstOrderGiven s).carriage = s.carriage ∧
    (firstOrderGiven s).driver = s.driver ∧ (firstOrderGiven s).heat = s.heat ∧ (firstOrderGiven s).paper = s.paper ∧
    (firstOrderGiven s).forms = s.forms ∧ (firstOrderGiven s).events = s.events ∧ (firstOrderGiven s).time = s.time ∧
    (firstOrderGiven s).pins = s.pins ∧ (firstOrderGiven s).outputs = s.outputs ∧
    (firstOrderGiven s).pending = s.pending := by
  simp [firstOrderGiven]

@[simp] theorem clearPhase_frame (s : State) :
    (clearPhase s).link = s.link ∧ (clearPhase s).mech = s.mech ∧ (clearPhase s).queue = s.queue ∧
    (clearPhase s).pool = s.pool ∧ (clearPhase s).carriage = s.carriage ∧ (clearPhase s).driver = s.driver ∧
    (clearPhase s).heat = s.heat ∧ (clearPhase s).paper = s.paper ∧ (clearPhase s).forms = s.forms ∧
    (clearPhase s).events = s.events ∧ (clearPhase s).time = s.time ∧ (clearPhase s).pins = s.pins ∧
    (clearPhase s).outputs = s.outputs ∧ (clearPhase s).pending = s.pending := by
  simp [clearPhase]

@[simp] theorem retire_frame (s : State) :
    (retire s).link = s.link ∧ (retire s).mech = s.mech ∧ (retire s).carriage = s.carriage ∧
    (retire s).driver = s.driver ∧ (retire s).heat = s.heat ∧ (retire s).paper = s.paper ∧
    (retire s).forms = s.forms ∧ (retire s).time = s.time ∧ (retire s).pins = s.pins ∧
    (retire s).outputs = s.outputs ∧ (retire s).pending = s.pending := by
  unfold retire; split <;> simp

/-! ## Machine/Paper.lean -/

@[simp] theorem firstPhase_frame (s : State) :
    (firstPhase s).link = s.link ∧ (firstPhase s).mech = s.mech ∧ (firstPhase s).queue = s.queue ∧
    (firstPhase s).pool = s.pool ∧ (firstPhase s).carriage = s.carriage ∧ (firstPhase s).driver = s.driver ∧
    (firstPhase s).heat = s.heat ∧ (firstPhase s).paper = s.paper ∧ (firstPhase s).forms = s.forms ∧
    (firstPhase s).events = s.events ∧ (firstPhase s).time = s.time ∧ (firstPhase s).pins = s.pins ∧
    (firstPhase s).outputs = s.outputs ∧ (firstPhase s).pending = s.pending := by
  unfold firstPhase; split <;> simp

@[simp] theorem prepCheck_frame (s : State) :
    (prepCheck s).link = s.link ∧ (prepCheck s).mech = s.mech ∧ (prepCheck s).queue = s.queue ∧
    (prepCheck s).pool = s.pool ∧ (prepCheck s).carriage = s.carriage ∧ (prepCheck s).driver = s.driver ∧
    (prepCheck s).heat = s.heat ∧ (prepCheck s).paper = s.paper ∧ (prepCheck s).forms = s.forms ∧
    (prepCheck s).events = s.events ∧ (prepCheck s).time = s.time ∧ (prepCheck s).pins = s.pins ∧
    (prepCheck s).outputs = s.outputs ∧ (prepCheck s).pending = s.pending := by
  unfold prepCheck; (repeat' split) <;> simp

@[simp] theorem writeRemaining_frame (n : Int) (s : State) :
    (writeRemaining n s).link = s.link ∧ (writeRemaining n s).mech = s.mech ∧
    (writeRemaining n s).carriage = s.carriage ∧ (writeRemaining n s).driver = s.driver ∧
    (writeRemaining n s).heat = s.heat ∧ (writeRemaining n s).paper = s.paper ∧
    (writeRemaining n s).forms = s.forms ∧ (writeRemaining n s).time = s.time ∧ (writeRemaining n s).pins = s.pins ∧
    (writeRemaining n s).outputs = s.outputs ∧ (writeRemaining n s).pending = s.pending := by
  unfold writeRemaining; split <;> simp

@[simp] theorem reportDone_frame (p : Purpose) (s : State) :
    (reportDone p s).link = s.link ∧ (reportDone p s).mech = s.mech ∧ (reportDone p s).carriage = s.carriage ∧
    (reportDone p s).driver = s.driver ∧ (reportDone p s).heat = s.heat ∧ (reportDone p s).paper = s.paper ∧
    (reportDone p s).forms = s.forms ∧ (reportDone p s).time = s.time ∧ (reportDone p s).pins = s.pins ∧
    (reportDone p s).outputs = s.outputs ∧ (reportDone p s).pending = s.pending := by
  unfold reportDone; split <;> simp

@[simp] theorem setPause_frame (b : Bool) (s : State) :
    (setPause b s).link = s.link ∧ (setPause b s).mech = s.mech ∧ (setPause b s).queue = s.queue ∧
    (setPause b s).pool = s.pool ∧ (setPause b s).carriage = s.carriage ∧ (setPause b s).driver = s.driver ∧
    (setPause b s).heat = s.heat ∧ (setPause b s).paper = s.paper ∧ (setPause b s).forms = s.forms ∧
    (setPause b s).events = s.events ∧ (setPause b s).time = s.time ∧ (setPause b s).pins = s.pins ∧
    (setPause b s).outputs = s.outputs ∧ (setPause b s).pending = s.pending := by
  simp [setPause]

@[simp] theorem parkAt_frame (d : Nat) (s : State) :
    (parkAt d s).link = s.link ∧ (parkAt d s).mech = s.mech ∧ (parkAt d s).queue = s.queue ∧
    (parkAt d s).pool = s.pool ∧ (parkAt d s).runner = s.runner ∧ (parkAt d s).carriage = s.carriage ∧
    (parkAt d s).driver = s.driver ∧ (parkAt d s).heat = s.heat ∧ (parkAt d s).forms = s.forms ∧
    (parkAt d s).events = s.events ∧ (parkAt d s).time = s.time ∧ (parkAt d s).pins = s.pins ∧
    (parkAt d s).outputs = s.outputs ∧ (parkAt d s).pending = s.pending := by
  simp [parkAt]

@[simp] theorem restPaper_frame (st : PaperState) (s : State) :
    (restPaper st s).link = s.link ∧ (restPaper st s).mech = s.mech ∧ (restPaper st s).queue = s.queue ∧
    (restPaper st s).pool = s.pool ∧ (restPaper st s).runner = s.runner ∧ (restPaper st s).carriage = s.carriage ∧
    (restPaper st s).driver = s.driver ∧ (restPaper st s).heat = s.heat ∧ (restPaper st s).forms = s.forms ∧
    (restPaper st s).events = s.events ∧ (restPaper st s).time = s.time ∧ (restPaper st s).pins = s.pins ∧
    (restPaper st s).outputs = s.outputs ∧ (restPaper st s).pending = s.pending := by
  simp [restPaper]

@[simp] theorem paperEndStop_frame (m : Motion) (s : State) :
    (paperEndStop m s).link = s.link ∧ (paperEndStop m s).mech = s.mech ∧ (paperEndStop m s).carriage = s.carriage ∧
    (paperEndStop m s).driver = s.driver ∧ (paperEndStop m s).heat = s.heat ∧ (paperEndStop m s).forms = s.forms ∧
    (paperEndStop m s).time = s.time ∧ (paperEndStop m s).pins = s.pins ∧ (paperEndStop m s).outputs = s.outputs ∧
    (paperEndStop m s).pending = s.pending := by
  unfold paperEndStop; (repeat' split) <;> simp

@[simp] theorem takeOrder_frame (p : Purpose) (d : Int) (s : State) :
    (takeOrder p d s).link = s.link ∧ (takeOrder p d s).mech = s.mech ∧ (takeOrder p d s).carriage = s.carriage ∧
    (takeOrder p d s).driver = s.driver ∧ (takeOrder p d s).heat = s.heat ∧ (takeOrder p d s).forms = s.forms ∧
    (takeOrder p d s).time = s.time ∧ (takeOrder p d s).pins = s.pins ∧ (takeOrder p d s).outputs = s.outputs ∧
    (takeOrder p d s).pending = s.pending := by
  unfold takeOrder; (repeat' split) <;> simp

@[simp] theorem giveRetract_frame (s : State) :
    (giveRetract s).link = s.link ∧ (giveRetract s).mech = s.mech ∧ (giveRetract s).carriage = s.carriage ∧
    (giveRetract s).driver = s.driver ∧ (giveRetract s).heat = s.heat ∧ (giveRetract s).forms = s.forms ∧
    (giveRetract s).time = s.time ∧ (giveRetract s).pins = s.pins ∧ (giveRetract s).outputs = s.outputs ∧
    (giveRetract s).pending = s.pending := by
  unfold giveRetract; split <;> simp

@[simp] theorem stopPaper_frame (c : StopCause) (s : State) :
    (stopPaper c s).link = s.link ∧ (stopPaper c s).mech = s.mech ∧ (stopPaper c s).queue = s.queue ∧
    (stopPaper c s).pool = s.pool ∧ (stopPaper c s).runner = s.runner ∧ (stopPaper c s).carriage = s.carriage ∧
    (stopPaper c s).driver = s.driver ∧ (stopPaper c s).heat = s.heat ∧ (stopPaper c s).forms = s.forms ∧
    (stopPaper c s).events = s.events ∧ (stopPaper c s).time = s.time ∧ (stopPaper c s).pins = s.pins ∧
    (stopPaper c s).outputs = s.outputs ∧ (stopPaper c s).pending = s.pending := by
  unfold stopPaper; split <;> simp

@[simp] theorem issueUnit_frame (m : Motion) (s : State) :
    (issueUnit m s).link = s.link ∧ (issueUnit m s).mech = s.mech ∧ (issueUnit m s).queue = s.queue ∧
    (issueUnit m s).pool = s.pool ∧ (issueUnit m s).runner = s.runner ∧ (issueUnit m s).carriage = s.carriage ∧
    (issueUnit m s).driver = s.driver ∧ (issueUnit m s).heat = s.heat ∧ (issueUnit m s).forms = s.forms ∧
    (issueUnit m s).events = s.events ∧ (issueUnit m s).time = s.time ∧ (issueUnit m s).pins = s.pins ∧
    (issueUnit m s).pending = s.pending := by
  simp [issueUnit]

@[simp] theorem feedUnit_frame (s : State) :
    (feedUnit s).link = s.link ∧ (feedUnit s).mech = s.mech ∧ (feedUnit s).carriage = s.carriage ∧
    (feedUnit s).driver = s.driver ∧ (feedUnit s).heat = s.heat ∧ (feedUnit s).forms = s.forms ∧
    (feedUnit s).pins = s.pins ∧ (feedUnit s).pending = s.pending := by
  unfold feedUnit; dsimp only; (repeat' split) <;> simp

@[simp] theorem completeMotion_frame (m : Motion) (s : State) :
    (completeMotion m s).link = s.link ∧ (completeMotion m s).mech = s.mech ∧
    (completeMotion m s).carriage = s.carriage ∧ (completeMotion m s).driver = s.driver ∧
    (completeMotion m s).heat = s.heat ∧ (completeMotion m s).forms = s.forms ∧ (completeMotion m s).time = s.time ∧
    (completeMotion m s).pins = s.pins ∧ (completeMotion m s).outputs = s.outputs ∧
    (completeMotion m s).pending = s.pending := by
  unfold completeMotion; split <;> simp

@[simp] theorem endStopped_frame (m : Motion) (s : State) :
    (endStopped m s).link = s.link ∧ (endStopped m s).mech = s.mech ∧ (endStopped m s).carriage = s.carriage ∧
    (endStopped m s).driver = s.driver ∧ (endStopped m s).heat = s.heat ∧ (endStopped m s).forms = s.forms ∧
    (endStopped m s).time = s.time ∧ (endStopped m s).pins = s.pins ∧ (endStopped m s).outputs = s.outputs ∧
    (endStopped m s).pending = s.pending := by
  unfold endStopped; (repeat' split) <;> simp

@[simp] theorem paperMotionComplete_frame (s : State) :
    (paperMotionComplete s).link = s.link ∧ (paperMotionComplete s).mech = s.mech ∧
    (paperMotionComplete s).carriage = s.carriage ∧ (paperMotionComplete s).driver = s.driver ∧
    (paperMotionComplete s).heat = s.heat ∧ (paperMotionComplete s).forms = s.forms ∧
    (paperMotionComplete s).pins = s.pins ∧ (paperMotionComplete s).outputs = s.outputs ∧
    (paperMotionComplete s).pending = s.pending := by
  unfold paperMotionComplete; (repeat' split) <;> simp

@[simp] theorem tearIdleTimerExpiry_frame (s : State) :
    (tearIdleTimerExpiry s).link = s.link ∧ (tearIdleTimerExpiry s).mech = s.mech ∧
    (tearIdleTimerExpiry s).carriage = s.carriage ∧ (tearIdleTimerExpiry s).driver = s.driver ∧
    (tearIdleTimerExpiry s).heat = s.heat ∧ (tearIdleTimerExpiry s).forms = s.forms ∧
    (tearIdleTimerExpiry s).pins = s.pins ∧ (tearIdleTimerExpiry s).outputs = s.outputs ∧
    (tearIdleTimerExpiry s).pending = s.pending := by
  unfold tearIdleTimerExpiry; dsimp only; (repeat' split) <;> simp

@[simp] theorem paperGone_frame (s : State) :
    (paperGone s).link = s.link ∧ (paperGone s).mech = s.mech ∧ (paperGone s).queue = s.queue ∧
    (paperGone s).pool = s.pool ∧ (paperGone s).runner = s.runner ∧ (paperGone s).carriage = s.carriage ∧
    (paperGone s).driver = s.driver ∧ (paperGone s).heat = s.heat ∧ (paperGone s).forms = s.forms ∧
    (paperGone s).time = s.time ∧ (paperGone s).outputs = s.outputs ∧ (paperGone s).pending = s.pending := by
  unfold paperGone; (repeat' split) <;> simp

@[simp] theorem paperBack_frame (s : State) :
    (paperBack s).link = s.link ∧ (paperBack s).mech = s.mech ∧ (paperBack s).queue = s.queue ∧
    (paperBack s).pool = s.pool ∧ (paperBack s).runner = s.runner ∧ (paperBack s).carriage = s.carriage ∧
    (paperBack s).driver = s.driver ∧ (paperBack s).heat = s.heat ∧ (paperBack s).forms = s.forms ∧
    (paperBack s).events = s.events ∧ (paperBack s).outputs = s.outputs ∧ (paperBack s).pending = s.pending := by
  unfold paperBack; (repeat' split) <;> simp

/-! ## Machine/Carriage.lean -/

@[simp] theorem raiseFault_frame (code : FaultCode) (tag : Option Byte) (pos : Option Nat) (s : State) :
    (raiseFault code tag pos s).link = s.link ∧ (raiseFault code tag pos s).mech = s.mech ∧
    (raiseFault code tag pos s).queue = s.queue ∧ (raiseFault code tag pos s).pool = s.pool ∧
    (raiseFault code tag pos s).carriage = s.carriage ∧ (raiseFault code tag pos s).driver = s.driver ∧
    (raiseFault code tag pos s).heat = s.heat ∧ (raiseFault code tag pos s).forms = s.forms ∧
    (raiseFault code tag pos s).time = s.time ∧ (raiseFault code tag pos s).pins = s.pins ∧
    (raiseFault code tag pos s).outputs = s.outputs ∧ (raiseFault code tag pos s).pending = s.pending := by
  unfold raiseFault; split <;> simp

@[simp] theorem homingOrder_frame (src : HomingSource) (s : State) :
    (homingOrder src s).link = s.link ∧ (homingOrder src s).mech = s.mech ∧ (homingOrder src s).queue = s.queue ∧
    (homingOrder src s).pool = s.pool ∧ (homingOrder src s).runner = s.runner ∧
    (homingOrder src s).driver = s.driver ∧ (homingOrder src s).heat = s.heat ∧ (homingOrder src s).paper = s.paper ∧
    (homingOrder src s).forms = s.forms ∧ (homingOrder src s).events = s.events ∧ (homingOrder src s).pins = s.pins ∧
    (homingOrder src s).outputs = s.outputs ∧ (homingOrder src s).pending = s.pending := by
  simp [homingOrder]

@[simp] theorem approachOrder_frame (target : Nat) (s : State) :
    (approachOrder target s).link = s.link ∧ (approachOrder target s).mech = s.mech ∧
    (approachOrder target s).queue = s.queue ∧ (approachOrder target s).pool = s.pool ∧
    (approachOrder target s).runner = s.runner ∧ (approachOrder target s).driver = s.driver ∧
    (approachOrder target s).heat = s.heat ∧ (approachOrder target s).paper = s.paper ∧
    (approachOrder target s).forms = s.forms ∧ (approachOrder target s).events = s.events ∧
    (approachOrder target s).pins = s.pins ∧ (approachOrder target s).outputs = s.outputs ∧
    (approachOrder target s).pending = s.pending := by
  unfold approachOrder; split <;> simp

@[simp] theorem giveSweep_frame (p : Plan) (s : State) :
    (giveSweep p s).link = s.link ∧ (giveSweep p s).mech = s.mech ∧ (giveSweep p s).queue = s.queue ∧
    (giveSweep p s).pool = s.pool ∧ (giveSweep p s).driver = s.driver ∧ (giveSweep p s).heat = s.heat ∧
    (giveSweep p s).paper = s.paper ∧ (giveSweep p s).forms = s.forms ∧ (giveSweep p s).events = s.events ∧
    (giveSweep p s).pins = s.pins ∧ (giveSweep p s).outputs = s.outputs ∧ (giveSweep p s).pending = s.pending := by
  simp [giveSweep]

@[simp] theorem giveOwedHoming_frame (s : State) :
    (giveOwedHoming s).link = s.link ∧ (giveOwedHoming s).mech = s.mech ∧ (giveOwedHoming s).queue = s.queue ∧
    (giveOwedHoming s).pool = s.pool ∧ (giveOwedHoming s).driver = s.driver ∧ (giveOwedHoming s).heat = s.heat ∧
    (giveOwedHoming s).paper = s.paper ∧ (giveOwedHoming s).forms = s.forms ∧ (giveOwedHoming s).events = s.events ∧
    (giveOwedHoming s).pins = s.pins ∧ (giveOwedHoming s).outputs = s.outputs ∧
    (giveOwedHoming s).pending = s.pending := by
  unfold giveOwedHoming; split <;> simp

@[simp] theorem flushResume_frame (s : State) :
    (flushResume s).link = s.link ∧ (flushResume s).mech = s.mech ∧ (flushResume s).pool = s.pool ∧
    (flushResume s).runner = s.runner ∧ (flushResume s).driver = s.driver ∧ (flushResume s).heat = s.heat ∧
    (flushResume s).paper = s.paper ∧ (flushResume s).forms = s.forms ∧ (flushResume s).events = s.events ∧
    (flushResume s).time = s.time ∧ (flushResume s).pins = s.pins ∧ (flushResume s).outputs = s.outputs ∧
    (flushResume s).pending = s.pending := by
  unfold flushResume; split <;> simp

@[simp] theorem dropPending_frame (s : State) :
    (dropPending s).link = s.link ∧ (dropPending s).mech = s.mech ∧ (dropPending s).queue = s.queue ∧
    (dropPending s).pool = s.pool ∧ (dropPending s).runner = s.runner ∧ (dropPending s).carriage = s.carriage ∧
    (dropPending s).heat = s.heat ∧ (dropPending s).paper = s.paper ∧ (dropPending s).forms = s.forms ∧
    (dropPending s).events = s.events ∧ (dropPending s).time = s.time ∧ (dropPending s).pins = s.pins ∧
    (dropPending s).outputs = s.outputs ∧ (dropPending s).pending = s.pending := by
  simp [dropPending]

@[simp] theorem brakeFor_frame (c : BrakeCause) (s : State) :
    (brakeFor c s).link = s.link ∧ (brakeFor c s).mech = s.mech ∧ (brakeFor c s).queue = s.queue ∧
    (brakeFor c s).pool = s.pool ∧ (brakeFor c s).runner = s.runner ∧ (brakeFor c s).driver = s.driver ∧
    (brakeFor c s).heat = s.heat ∧ (brakeFor c s).paper = s.paper ∧ (brakeFor c s).forms = s.forms ∧
    (brakeFor c s).events = s.events ∧ (brakeFor c s).time = s.time ∧ (brakeFor c s).pins = s.pins ∧
    (brakeFor c s).outputs = s.outputs ∧ (brakeFor c s).pending = s.pending := by
  simp [brakeFor]

@[simp] theorem stopSweep_frame (c : BrakeCause) (s : State) :
    (stopSweep c s).link = s.link ∧ (stopSweep c s).mech = s.mech ∧ (stopSweep c s).pool = s.pool ∧
    (stopSweep c s).runner = s.runner ∧ (stopSweep c s).heat = s.heat ∧ (stopSweep c s).paper = s.paper ∧
    (stopSweep c s).forms = s.forms ∧ (stopSweep c s).events = s.events ∧ (stopSweep c s).time = s.time ∧
    (stopSweep c s).pins = s.pins ∧ (stopSweep c s).outputs = s.outputs ∧ (stopSweep c s).pending = s.pending := by
  simp [stopSweep]

@[simp] theorem suspendTrigger_frame (r : SuspendReason) (s : State) :
    (suspendTrigger r s).link = s.link ∧ (suspendTrigger r s).mech = s.mech ∧ (suspendTrigger r s).pool = s.pool ∧
    (suspendTrigger r s).runner = s.runner ∧ (suspendTrigger r s).heat = s.heat ∧
    (suspendTrigger r s).paper = s.paper ∧ (suspendTrigger r s).forms = s.forms ∧
    (suspendTrigger r s).events = s.events ∧ (suspendTrigger r s).time = s.time ∧
    (suspendTrigger r s).pins = s.pins ∧ (suspendTrigger r s).outputs = s.outputs ∧
    (suspendTrigger r s).pending = s.pending := by
  unfold suspendTrigger; (repeat' split) <;> simp

@[simp] theorem endSweep_frame (s : State) :
    (endSweep s).link = s.link ∧ (endSweep s).mech = s.mech ∧ (endSweep s).pool = s.pool ∧
    (endSweep s).runner = s.runner ∧ (endSweep s).driver = s.driver ∧ (endSweep s).heat = s.heat ∧
    (endSweep s).paper = s.paper ∧ (endSweep s).forms = s.forms ∧ (endSweep s).events = s.events ∧
    (endSweep s).time = s.time ∧ (endSweep s).pins = s.pins ∧ (endSweep s).outputs = s.outputs ∧
    (endSweep s).pending = s.pending := by
  simp [endSweep]

@[simp] theorem checkSweepEnd_frame (s : State) :
    (checkSweepEnd s).link = s.link ∧ (checkSweepEnd s).mech = s.mech ∧ (checkSweepEnd s).pool = s.pool ∧
    (checkSweepEnd s).runner = s.runner ∧ (checkSweepEnd s).driver = s.driver ∧ (checkSweepEnd s).heat = s.heat ∧
    (checkSweepEnd s).paper = s.paper ∧ (checkSweepEnd s).forms = s.forms ∧ (checkSweepEnd s).events = s.events ∧
    (checkSweepEnd s).time = s.time ∧ (checkSweepEnd s).pins = s.pins ∧ (checkSweepEnd s).outputs = s.outputs ∧
    (checkSweepEnd s).pending = s.pending := by
  unfold checkSweepEnd; split <;> simp

@[simp] theorem carriageLost_frame (s : State) :
    (carriageLost s).link = s.link ∧ (carriageLost s).mech = s.mech ∧ (carriageLost s).pool = s.pool ∧
    (carriageLost s).runner = s.runner ∧ (carriageLost s).heat = s.heat ∧ (carriageLost s).paper = s.paper ∧
    (carriageLost s).forms = s.forms ∧ (carriageLost s).events = s.events ∧ (carriageLost s).pins = s.pins ∧
    (carriageLost s).outputs = s.outputs ∧ (carriageLost s).pending = s.pending := by
  simp [carriageLost]

@[simp] theorem dropApproached_frame (s : State) :
    (dropApproached s).link = s.link ∧ (dropApproached s).mech = s.mech ∧ (dropApproached s).queue = s.queue ∧
    (dropApproached s).pool = s.pool ∧ (dropApproached s).carriage = s.carriage ∧
    (dropApproached s).driver = s.driver ∧ (dropApproached s).heat = s.heat ∧ (dropApproached s).paper = s.paper ∧
    (dropApproached s).forms = s.forms ∧ (dropApproached s).events = s.events ∧ (dropApproached s).time = s.time ∧
    (dropApproached s).pins = s.pins ∧ (dropApproached s).outputs = s.outputs ∧
    (dropApproached s).pending = s.pending := by
  unfold dropApproached; split <;> simp

@[simp] theorem stall_frame (pos : Option Nat) (s : State) :
    (stall pos s).link = s.link ∧ (stall pos s).mech = s.mech ∧ (stall pos s).pool = s.pool ∧
    (stall pos s).heat = s.heat ∧ (stall pos s).forms = s.forms ∧ (stall pos s).pins = s.pins ∧
    (stall pos s).outputs = s.outputs ∧ (stall pos s).pending = s.pending := by
  unfold stall; (repeat' split) <;> simp

@[simp] theorem stallTimerExpiry_frame (s : State) :
    (stallTimerExpiry s).link = s.link ∧ (stallTimerExpiry s).mech = s.mech ∧ (stallTimerExpiry s).pool = s.pool ∧
    (stallTimerExpiry s).heat = s.heat ∧ (stallTimerExpiry s).forms = s.forms ∧ (stallTimerExpiry s).pins = s.pins ∧
    (stallTimerExpiry s).outputs = s.outputs ∧ (stallTimerExpiry s).pending = s.pending := by
  unfold stallTimerExpiry; split <;> simp

@[simp] theorem brakeRampEnd_frame (s : State) :
    (brakeRampEnd s).link = s.link ∧ (brakeRampEnd s).mech = s.mech ∧ (brakeRampEnd s).queue = s.queue ∧
    (brakeRampEnd s).pool = s.pool ∧ (brakeRampEnd s).runner = s.runner ∧ (brakeRampEnd s).driver = s.driver ∧
    (brakeRampEnd s).heat = s.heat ∧ (brakeRampEnd s).paper = s.paper ∧ (brakeRampEnd s).forms = s.forms ∧
    (brakeRampEnd s).events = s.events ∧ (brakeRampEnd s).time = s.time ∧ (brakeRampEnd s).pins = s.pins ∧
    (brakeRampEnd s).outputs = s.outputs ∧ (brakeRampEnd s).pending = s.pending := by
  unfold brakeRampEnd; split <;> simp

@[simp] theorem finishBraking_frame (s : State) :
    (finishBraking s).link = s.link ∧ (finishBraking s).mech = s.mech ∧ (finishBraking s).pool = s.pool ∧
    (finishBraking s).driver = s.driver ∧ (finishBraking s).heat = s.heat ∧ (finishBraking s).paper = s.paper ∧
    (finishBraking s).forms = s.forms ∧ (finishBraking s).pins = s.pins ∧ (finishBraking s).outputs = s.outputs ∧
    (finishBraking s).pending = s.pending := by
  unfold finishBraking; dsimp only; split <;> simp

@[simp] theorem homingStage_frame (h : Homing) (st : HomingStage) (s : State) :
    (homingStage h st s).link = s.link ∧ (homingStage h st s).mech = s.mech ∧ (homingStage h st s).queue = s.queue ∧
    (homingStage h st s).pool = s.pool ∧ (homingStage h st s).runner = s.runner ∧
    (homingStage h st s).driver = s.driver ∧ (homingStage h st s).heat = s.heat ∧
    (homingStage h st s).paper = s.paper ∧ (homingStage h st s).forms = s.forms ∧
    (homingStage h st s).events = s.events ∧ (homingStage h st s).pins = s.pins ∧
    (homingStage h st s).outputs = s.outputs ∧ (homingStage h st s).pending = s.pending := by
  simp [homingStage]

@[simp] theorem homingRest_frame (h : Homing) (s : State) :
    (homingRest h s).link = s.link ∧ (homingRest h s).mech = s.mech ∧ (homingRest h s).queue = s.queue ∧
    (homingRest h s).pool = s.pool ∧ (homingRest h s).runner = s.runner ∧ (homingRest h s).driver = s.driver ∧
    (homingRest h s).heat = s.heat ∧ (homingRest h s).paper = s.paper ∧ (homingRest h s).forms = s.forms ∧
    (homingRest h s).pins = s.pins ∧ (homingRest h s).outputs = s.outputs ∧ (homingRest h s).pending = s.pending := by
  unfold homingRest; (repeat' split) <;> simp

@[simp] theorem restDetected_frame (s : State) :
    (restDetected s).link = s.link ∧ (restDetected s).mech = s.mech ∧ (restDetected s).pool = s.pool ∧
    (restDetected s).driver = s.driver ∧ (restDetected s).heat = s.heat ∧ (restDetected s).paper = s.paper ∧
    (restDetected s).forms = s.forms ∧ (restDetected s).pins = s.pins ∧ (restDetected s).outputs = s.outputs ∧
    (restDetected s).pending = s.pending := by
  unfold restDetected; (repeat' split) <;> simp

@[simp] theorem homeSensorChange_frame (b : Bool) (s : State) :
    (homeSensorChange b s).link = s.link ∧ (homeSensorChange b s).mech = s.mech ∧
    (homeSensorChange b s).queue = s.queue ∧ (homeSensorChange b s).pool = s.pool ∧
    (homeSensorChange b s).runner = s.runner ∧ (homeSensorChange b s).driver = s.driver ∧
    (homeSensorChange b s).heat = s.heat ∧ (homeSensorChange b s).paper = s.paper ∧
    (homeSensorChange b s).forms = s.forms ∧ (homeSensorChange b s).events = s.events ∧
    (homeSensorChange b s).time = s.time ∧ (homeSensorChange b s).outputs = s.outputs ∧
    (homeSensorChange b s).pending = s.pending := by
  unfold homeSensorChange; (repeat' split) <;> simp

@[simp] theorem crossLimit_frame (l : Nat) (s : State) :
    (crossLimit l s).link = s.link ∧ (crossLimit l s).mech = s.mech ∧ (crossLimit l s).pool = s.pool ∧
    (crossLimit l s).heat = s.heat ∧ (crossLimit l s).forms = s.forms ∧ (crossLimit l s).pins = s.pins ∧
    (crossLimit l s).outputs = s.outputs ∧ (crossLimit l s).pending = s.pending := by
  unfold crossLimit; (repeat' split) <;> simp

@[simp] theorem abortCarriage_frame (s : State) :
    (abortCarriage s).link = s.link ∧ (abortCarriage s).mech = s.mech ∧ (abortCarriage s).queue = s.queue ∧
    (abortCarriage s).pool = s.pool ∧ (abortCarriage s).runner = s.runner ∧ (abortCarriage s).heat = s.heat ∧
    (abortCarriage s).paper = s.paper ∧ (abortCarriage s).forms = s.forms ∧ (abortCarriage s).events = s.events ∧
    (abortCarriage s).time = s.time ∧ (abortCarriage s).pins = s.pins ∧ (abortCarriage s).outputs = s.outputs ∧
    (abortCarriage s).pending = s.pending := by
  unfold abortCarriage; split <;> simp

/-! ## Machine/Driver.lean -/

@[simp] theorem loseDots_frame (b : Burst) (ps : List (Nat × Nat)) (s : State) :
    (loseDots b ps s).link = s.link ∧ (loseDots b ps s).mech = s.mech ∧ (loseDots b ps s).runner = s.runner ∧
    (loseDots b ps s).carriage = s.carriage ∧ (loseDots b ps s).driver = s.driver ∧ (loseDots b ps s).heat = s.heat ∧
    (loseDots b ps s).paper = s.paper ∧ (loseDots b ps s).forms = s.forms ∧ (loseDots b ps s).time = s.time ∧
    (loseDots b ps s).pins = s.pins ∧ (loseDots b ps s).outputs = s.outputs ∧
    (loseDots b ps s).pending = s.pending := by
  unfold loseDots; split <;> simp

@[simp] theorem takeMatch_frame (ch : Chan) (c : Nat) (s : State) :
    (takeMatch ch c s).link = s.link ∧ (takeMatch ch c s).mech = s.mech ∧ (takeMatch ch c s).runner = s.runner ∧
    (takeMatch ch c s).carriage = s.carriage ∧ (takeMatch ch c s).heat = s.heat ∧
    (takeMatch ch c s).paper = s.paper ∧ (takeMatch ch c s).forms = s.forms ∧ (takeMatch ch c s).time = s.time ∧
    (takeMatch ch c s).pins = s.pins ∧ (takeMatch ch c s).outputs = s.outputs ∧
    (takeMatch ch c s).pending = s.pending := by
  unfold takeMatch; (repeat' split) <;> simp

@[simp] theorem startPending_frame (s : State) :
    (startPending s).link = s.link ∧ (startPending s).mech = s.mech ∧ (startPending s).queue = s.queue ∧
    (startPending s).pool = s.pool ∧ (startPending s).runner = s.runner ∧ (startPending s).carriage = s.carriage ∧
    (startPending s).heat = s.heat ∧ (startPending s).paper = s.paper ∧ (startPending s).forms = s.forms ∧
    (startPending s).events = s.events ∧ (startPending s).time = s.time ∧ (startPending s).pins = s.pins ∧
    (startPending s).outputs = s.outputs ∧ (startPending s).pending = s.pending := by
  unfold startPending; (repeat' split) <;> simp

@[simp] theorem haltSweep_frame (s : State) :
    (haltSweep s).link = s.link ∧ (haltSweep s).mech = s.mech ∧ (haltSweep s).pool = s.pool ∧
    (haltSweep s).runner = s.runner ∧ (haltSweep s).heat = s.heat ∧ (haltSweep s).paper = s.paper ∧
    (haltSweep s).forms = s.forms ∧ (haltSweep s).events = s.events ∧ (haltSweep s).time = s.time ∧
    (haltSweep s).pins = s.pins ∧ (haltSweep s).outputs = s.outputs ∧ (haltSweep s).pending = s.pending := by
  unfold haltSweep; split <;> simp

@[simp] theorem takeDriveFault_frame (s : State) :
    (takeDriveFault s).link = s.link ∧ (takeDriveFault s).mech = s.mech ∧ (takeDriveFault s).heat = s.heat ∧
    (takeDriveFault s).forms = s.forms ∧ (takeDriveFault s).time = s.time ∧ (takeDriveFault s).pins = s.pins ∧
    (takeDriveFault s).pending = s.pending := by
  unfold takeDriveFault; (repeat' split) <;> simp

@[simp] theorem checkDriveFault_frame (s : State) :
    (checkDriveFault s).link = s.link ∧ (checkDriveFault s).mech = s.mech ∧ (checkDriveFault s).heat = s.heat ∧
    (checkDriveFault s).forms = s.forms ∧ (checkDriveFault s).time = s.time ∧ (checkDriveFault s).pins = s.pins ∧
    (checkDriveFault s).pending = s.pending := by
  unfold checkDriveFault; split <;> simp

@[simp] theorem driveFaultInput_frame (a : Bool) (s : State) :
    (driveFaultInput a s).link = s.link ∧ (driveFaultInput a s).mech = s.mech ∧ (driveFaultInput a s).heat = s.heat ∧
    (driveFaultInput a s).forms = s.forms ∧ (driveFaultInput a s).pending = s.pending := by
  simp [driveFaultInput]

@[simp] theorem fireDots_frame (b : Burst) (ps : List (Nat × Nat)) (s : State) :
    (fireDots b ps s).link = s.link ∧ (fireDots b ps s).mech = s.mech ∧ (fireDots b ps s).runner = s.runner ∧
    (fireDots b ps s).carriage = s.carriage ∧ (fireDots b ps s).driver = s.driver ∧ (fireDots b ps s).heat = s.heat ∧
    (fireDots b ps s).paper = s.paper ∧ (fireDots b ps s).forms = s.forms ∧ (fireDots b ps s).events = s.events ∧
    (fireDots b ps s).time = s.time ∧ (fireDots b ps s).pins = s.pins ∧ (fireDots b ps s).outputs = s.outputs ∧
    (fireDots b ps s).pending = s.pending := by
  unfold fireDots; split <;> simp

@[simp] theorem burstSlot_frame (s : State) :
    (burstSlot s).link = s.link ∧ (burstSlot s).mech = s.mech ∧ (burstSlot s).runner = s.runner ∧
    (burstSlot s).paper = s.paper ∧ (burstSlot s).forms = s.forms ∧ (burstSlot s).events = s.events ∧
    (burstSlot s).time = s.time ∧ (burstSlot s).pins = s.pins ∧ (burstSlot s).pending = s.pending := by
  unfold burstSlot; dsimp only; (repeat' split) <;> simp

@[simp] theorem burstEnd_frame (s : State) :
    (burstEnd s).link = s.link ∧ (burstEnd s).mech = s.mech ∧ (burstEnd s).heat = s.heat ∧
    (burstEnd s).forms = s.forms ∧ (burstEnd s).pins = s.pins ∧ (burstEnd s).pending = s.pending := by
  unfold burstEnd; (repeat' split) <;> simp

@[simp] theorem coolingTick_frame (s : State) :
    (coolingTick s).link = s.link ∧ (coolingTick s).mech = s.mech ∧ (coolingTick s).queue = s.queue ∧
    (coolingTick s).pool = s.pool ∧ (coolingTick s).carriage = s.carriage ∧ (coolingTick s).driver = s.driver ∧
    (coolingTick s).paper = s.paper ∧ (coolingTick s).forms = s.forms ∧ (coolingTick s).events = s.events ∧
    (coolingTick s).pins = s.pins ∧ (coolingTick s).outputs = s.outputs ∧ (coolingTick s).pending = s.pending := by
  unfold coolingTick; dsimp only; (repeat' split) <;> simp

@[simp] theorem coverOpens_frame (s : State) :
    (coverOpens s).link = s.link ∧ (coverOpens s).mech = s.mech ∧ (coverOpens s).pool = s.pool ∧
    (coverOpens s).runner = s.runner ∧ (coverOpens s).heat = s.heat ∧ (coverOpens s).paper = s.paper ∧
    (coverOpens s).forms = s.forms ∧ (coverOpens s).events = s.events ∧ (coverOpens s).time = s.time ∧
    (coverOpens s).outputs = s.outputs ∧ (coverOpens s).pending = s.pending := by
  unfold coverOpens; split <;> simp

@[simp] theorem coverCloses_frame (s : State) :
    (coverCloses s).link = s.link ∧ (coverCloses s).mech = s.mech ∧ (coverCloses s).queue = s.queue ∧
    (coverCloses s).pool = s.pool ∧ (coverCloses s).runner = s.runner ∧ (coverCloses s).carriage = s.carriage ∧
    (coverCloses s).driver = s.driver ∧ (coverCloses s).heat = s.heat ∧ (coverCloses s).paper = s.paper ∧
    (coverCloses s).forms = s.forms ∧ (coverCloses s).events = s.events ∧ (coverCloses s).time = s.time ∧
    (coverCloses s).outputs = s.outputs ∧ (coverCloses s).pending = s.pending := by
  simp [coverCloses]

@[simp] theorem handMatch_frame (ch : Chan) (hit : Option Elem) (s : State) :
    (handMatch ch hit s).link = s.link ∧ (handMatch ch hit s).mech = s.mech ∧
    (handMatch ch hit s).runner = s.runner ∧ (handMatch ch hit s).carriage = s.carriage ∧
    (handMatch ch hit s).heat = s.heat ∧ (handMatch ch hit s).paper = s.paper ∧
    (handMatch ch hit s).forms = s.forms ∧ (handMatch ch hit s).time = s.time ∧ (handMatch ch hit s).pins = s.pins ∧
    (handMatch ch hit s).outputs = s.outputs ∧ (handMatch ch hit s).pending = s.pending := by
  unfold handMatch; split <;> simp

@[simp] theorem compareAt_frame (q : Nat) (s : State) :
    (compareAt q s).link = s.link ∧ (compareAt q s).mech = s.mech ∧ (compareAt q s).heat = s.heat ∧
    (compareAt q s).forms = s.forms ∧ (compareAt q s).time = s.time ∧ (compareAt q s).pins = s.pins ∧
    (compareAt q s).pending = s.pending := by
  unfold compareAt; dsimp only; split <;> simp

@[simp] theorem endRunUp_frame (q : Nat) (s : State) :
    (endRunUp q s).link = s.link ∧ (endRunUp q s).mech = s.mech ∧ (endRunUp q s).heat = s.heat ∧
    (endRunUp q s).forms = s.forms ∧ (endRunUp q s).time = s.time ∧ (endRunUp q s).pins = s.pins ∧
    (endRunUp q s).pending = s.pending := by
  simp [endRunUp]

@[simp] theorem edgeAt_frame (dir : Dir) (q : Nat) (s : State) :
    (edgeAt dir q s).link = s.link ∧ (edgeAt dir q s).mech = s.mech ∧ (edgeAt dir q s).heat = s.heat ∧
    (edgeAt dir q s).forms = s.forms ∧ (edgeAt dir q s).time = s.time ∧ (edgeAt dir q s).pins = s.pins ∧
    (edgeAt dir q s).pending = s.pending := by
  unfold edgeAt; (repeat' split) <;> simp

@[simp] theorem edgeUnplaced_frame (dir : Dir) (s : State) :
    (edgeUnplaced dir s).link = s.link ∧ (edgeUnplaced dir s).mech = s.mech ∧ (edgeUnplaced dir s).pool = s.pool ∧
    (edgeUnplaced dir s).heat = s.heat ∧ (edgeUnplaced dir s).forms = s.forms ∧ (edgeUnplaced dir s).pins = s.pins ∧
    (edgeUnplaced dir s).outputs = s.outputs ∧ (edgeUnplaced dir s).pending = s.pending := by
  unfold edgeUnplaced; dsimp only; (repeat' split) <;> simp

@[simp] theorem countEdge_frame (dir : Dir) (s : State) :
    (countEdge dir s).link = s.link ∧ (countEdge dir s).mech = s.mech ∧ (countEdge dir s).heat = s.heat ∧
    (countEdge dir s).forms = s.forms ∧ (countEdge dir s).pins = s.pins ∧
    (countEdge dir s).pending = s.pending := by
  unfold countEdge; dsimp only; (repeat' split) <;> simp

theorem turnQuad_frame (q : Quad) (s : State) : turnQuad q s = s.setPins (turnQuad q s).pins := by
  cases q <;> rfl

@[simp] theorem encoderEdge_frame (q : Quad) (s : State) :
    (encoderEdge q s).link = s.link ∧ (encoderEdge q s).mech = s.mech ∧ (encoderEdge q s).heat = s.heat ∧
    (encoderEdge q s).forms = s.forms ∧ (encoderEdge q s).pins = (turnQuad q s).pins ∧
    (encoderEdge q s).pending = s.pending := by
  unfold encoderEdge; cases q <;> simp [turnQuad]

/-! ## Machine/Runner.lean -/

@[simp] theorem startHead_frame (e : Entry) (s : State) :
    (startHead e s).link = s.link ∧ (startHead e s).mech = s.mech ∧ (startHead e s).carriage = s.carriage ∧
    (startHead e s).driver = s.driver ∧ (startHead e s).heat = s.heat ∧ (startHead e s).forms = s.forms ∧
    (startHead e s).time = s.time ∧ (startHead e s).pins = s.pins ∧ (startHead e s).outputs = s.outputs ∧
    (startHead e s).pending = s.pending := by
  unfold startHead; dsimp only; split <;> simp

@[simp] theorem takeUp_frame (s : State) :
    (takeUp s).link = s.link ∧ (takeUp s).mech = s.mech ∧ (takeUp s).carriage = s.carriage ∧
    (takeUp s).driver = s.driver ∧ (takeUp s).heat = s.heat ∧ (takeUp s).forms = s.forms ∧ (takeUp s).time = s.time ∧
    (takeUp s).pins = s.pins ∧ (takeUp s).outputs = s.outputs ∧ (takeUp s).pending = s.pending := by
  unfold takeUp; (repeat' split) <;> simp

@[simp] theorem prep_frame (s : State) :
    (prep s).link = s.link ∧ (prep s).mech = s.mech ∧ (prep s).carriage = s.carriage ∧ (prep s).driver = s.driver ∧
    (prep s).heat = s.heat ∧ (prep s).forms = s.forms ∧ (prep s).time = s.time ∧ (prep s).pins = s.pins ∧
    (prep s).outputs = s.outputs ∧ (prep s).pending = s.pending := by
  unfold prep; (repeat' split) <;> simp

@[simp] theorem afterMasking_frame (s : State) :
    (afterMasking s).link = s.link ∧ (afterMasking s).mech = s.mech ∧ (afterMasking s).queue = s.queue ∧
    (afterMasking s).pool = s.pool ∧ (afterMasking s).carriage = s.carriage ∧ (afterMasking s).driver = s.driver ∧
    (afterMasking s).heat = s.heat ∧ (afterMasking s).paper = s.paper ∧ (afterMasking s).forms = s.forms ∧
    (afterMasking s).events = s.events ∧ (afterMasking s).time = s.time ∧ (afterMasking s).pins = s.pins ∧
    (afterMasking s).outputs = s.outputs ∧ (afterMasking s).pending = s.pending := by
  unfold afterMasking; (repeat' split) <;> simp

@[simp] theorem masking_frame (s : State) :
    (masking s).link = s.link ∧ (masking s).mech = s.mech ∧ (masking s).pool = s.pool ∧
    (masking s).carriage = s.carriage ∧ (masking s).driver = s.driver ∧ (masking s).heat = s.heat ∧
    (masking s).paper = s.paper ∧ (masking s).forms = s.forms ∧ (masking s).events = s.events ∧
    (masking s).time = s.time ∧ (masking s).pins = s.pins ∧ (masking s).outputs = s.outputs ∧
    (masking s).pending = s.pending := by
  unfold masking; split <;> simp

@[simp] theorem heatCheck_frame (s : State) :
    (heatCheck s).link = s.link ∧ (heatCheck s).mech = s.mech ∧ (heatCheck s).pool = s.pool ∧
    (heatCheck s).carriage = s.carriage ∧ (heatCheck s).driver = s.driver ∧ (heatCheck s).heat = s.heat ∧
    (heatCheck s).paper = s.paper ∧ (heatCheck s).forms = s.forms ∧ (heatCheck s).events = s.events ∧
    (heatCheck s).time = s.time ∧ (heatCheck s).pins = s.pins ∧ (heatCheck s).outputs = s.outputs ∧
    (heatCheck s).pending = s.pending := by
  unfold heatCheck; dsimp only; (repeat' split) <;> simp

@[simp] theorem planHead_frame (e : Entry) (p : Pass) (pos : Nat) (s : State) :
    (planHead e p pos s).link = s.link ∧ (planHead e p pos s).mech = s.mech ∧ (planHead e p pos s).pool = s.pool ∧
    (planHead e p pos s).driver = s.driver ∧ (planHead e p pos s).heat = s.heat ∧
    (planHead e p pos s).paper = s.paper ∧ (planHead e p pos s).forms = s.forms ∧
    (planHead e p pos s).events = s.events ∧ (planHead e p pos s).pins = s.pins ∧
    (planHead e p pos s).outputs = s.outputs ∧ (planHead e p pos s).pending = s.pending := by
  unfold planHead; split <;> simp

@[simp] theorem position_frame (s : State) :
    (position s).link = s.link ∧ (position s).mech = s.mech ∧ (position s).pool = s.pool ∧
    (position s).driver = s.driver ∧ (position s).heat = s.heat ∧ (position s).paper = s.paper ∧
    (position s).forms = s.forms ∧ (position s).events = s.events ∧ (position s).pins = s.pins ∧
    (position s).outputs = s.outputs ∧ (position s).pending = s.pending := by
  unfold position; (repeat' split) <;> simp

@[simp] theorem sweepOrder_frame (s : State) :
    (sweepOrder s).link = s.link ∧ (sweepOrder s).mech = s.mech ∧ (sweepOrder s).queue = s.queue ∧
    (sweepOrder s).pool = s.pool ∧ (sweepOrder s).driver = s.driver ∧ (sweepOrder s).heat = s.heat ∧
    (sweepOrder s).paper = s.paper ∧ (sweepOrder s).forms = s.forms ∧ (sweepOrder s).events = s.events ∧
    (sweepOrder s).pins = s.pins ∧ (sweepOrder s).outputs = s.outputs ∧ (sweepOrder s).pending = s.pending := by
  unfold sweepOrder; (repeat' split) <;> simp

@[simp] theorem resumeSuspended_frame (s : State) :
    (resumeSuspended s).link = s.link ∧ (resumeSuspended s).mech = s.mech ∧ (resumeSuspended s).pool = s.pool ∧
    (resumeSuspended s).carriage = s.carriage ∧ (resumeSuspended s).driver = s.driver ∧
    (resumeSuspended s).heat = s.heat ∧ (resumeSuspended s).paper = s.paper ∧ (resumeSuspended s).forms = s.forms ∧
    (resumeSuspended s).events = s.events ∧ (resumeSuspended s).time = s.time ∧ (resumeSuspended s).pins = s.pins ∧
    (resumeSuspended s).outputs = s.outputs ∧ (resumeSuspended s).pending = s.pending := by
  unfold resumeSuspended; split <;> simp

@[simp] theorem advanceOrder_frame (s : State) :
    (advanceOrder s).link = s.link ∧ (advanceOrder s).mech = s.mech ∧ (advanceOrder s).carriage = s.carriage ∧
    (advanceOrder s).driver = s.driver ∧ (advanceOrder s).heat = s.heat ∧ (advanceOrder s).forms = s.forms ∧
    (advanceOrder s).pins = s.pins ∧ (advanceOrder s).outputs = s.outputs ∧ (advanceOrder s).pending = s.pending := by
  unfold advanceOrder; (repeat' split) <;> simp

@[simp] theorem advanceEntryOrder_frame (s : State) :
    (advanceEntryOrder s).link = s.link ∧ (advanceEntryOrder s).mech = s.mech ∧
    (advanceEntryOrder s).carriage = s.carriage ∧ (advanceEntryOrder s).driver = s.driver ∧
    (advanceEntryOrder s).heat = s.heat ∧ (advanceEntryOrder s).forms = s.forms ∧
    (advanceEntryOrder s).pins = s.pins ∧ (advanceEntryOrder s).outputs = s.outputs ∧
    (advanceEntryOrder s).pending = s.pending := by
  unfold advanceEntryOrder; (repeat' split) <;> simp

@[simp] theorem lookAheadPlan_frame (s : State) :
    (lookAheadPlan s).link = s.link ∧ (lookAheadPlan s).mech = s.mech ∧ (lookAheadPlan s).pool = s.pool ∧
    (lookAheadPlan s).driver = s.driver ∧ (lookAheadPlan s).heat = s.heat ∧ (lookAheadPlan s).paper = s.paper ∧
    (lookAheadPlan s).forms = s.forms ∧ (lookAheadPlan s).events = s.events ∧ (lookAheadPlan s).pins = s.pins ∧
    (lookAheadPlan s).outputs = s.outputs ∧ (lookAheadPlan s).pending = s.pending := by
  unfold lookAheadPlan; (repeat' split) <;> simp

@[simp] theorem entryAborted_frame (s : State) :
    (entryAborted s).link = s.link ∧ (entryAborted s).mech = s.mech ∧ (entryAborted s).queue = s.queue ∧
    (entryAborted s).pool = s.pool ∧ (entryAborted s).carriage = s.carriage ∧ (entryAborted s).driver = s.driver ∧
    (entryAborted s).heat = s.heat ∧ (entryAborted s).paper = s.paper ∧ (entryAborted s).forms = s.forms ∧
    (entryAborted s).time = s.time ∧ (entryAborted s).pins = s.pins ∧ (entryAborted s).outputs = s.outputs ∧
    (entryAborted s).pending = s.pending := by
  unfold entryAborted; split <;> simp

/-! ## Verdicts -/

@[simp] theorem accept_state (s : State) : (accept s).state = s := rfl
@[simp] theorem accept_code (s : State) : (accept s).code = .ok := rfl
@[simp] theorem accept_data (s : State) : (accept s).data = [] := rfl
@[simp] theorem refuse_state (c : ResultCode) (s : State) : (refuse c s).state = s := rfl
@[simp] theorem refuse_code (c : ResultCode) (s : State) : (refuse c s).code = c := rfl
@[simp] theorem refuse_data (c : ResultCode) (s : State) : (refuse c s).data = [] := rfl

/-! ## Machine/Requests.lean -/

@[simp] theorem storeForm_frame (n : Nat) (p : Profile) (s : State) :
    (storeForm n p s).link = s.link ∧ (storeForm n p s).mech = s.mech ∧ (storeForm n p s).queue = s.queue ∧
    (storeForm n p s).pool = s.pool ∧ (storeForm n p s).runner = s.runner ∧ (storeForm n p s).carriage = s.carriage ∧
    (storeForm n p s).driver = s.driver ∧ (storeForm n p s).heat = s.heat ∧ (storeForm n p s).events = s.events ∧
    (storeForm n p s).pins = s.pins ∧ (storeForm n p s).outputs = s.outputs ∧
    (storeForm n p s).pending = s.pending := by
  unfold storeForm; split <;> simp

@[simp] theorem dropPark_frame (s : State) :
    (dropPark s).link = s.link ∧ (dropPark s).mech = s.mech ∧ (dropPark s).queue = s.queue ∧
    (dropPark s).pool = s.pool ∧ (dropPark s).runner = s.runner ∧ (dropPark s).carriage = s.carriage ∧
    (dropPark s).driver = s.driver ∧ (dropPark s).heat = s.heat ∧ (dropPark s).forms = s.forms ∧
    (dropPark s).events = s.events ∧ (dropPark s).time = s.time ∧ (dropPark s).pins = s.pins ∧
    (dropPark s).outputs = s.outputs ∧ (dropPark s).pending = s.pending := by
  simp [dropPark]

@[simp] theorem zeroY_frame (s : State) :
    (zeroY s).link = s.link ∧ (zeroY s).mech = s.mech ∧ (zeroY s).queue = s.queue ∧ (zeroY s).pool = s.pool ∧
    (zeroY s).runner = s.runner ∧ (zeroY s).carriage = s.carriage ∧ (zeroY s).driver = s.driver ∧
    (zeroY s).heat = s.heat ∧ (zeroY s).forms = s.forms ∧ (zeroY s).events = s.events ∧ (zeroY s).time = s.time ∧
    (zeroY s).pins = s.pins ∧ (zeroY s).outputs = s.outputs ∧ (zeroY s).pending = s.pending := by
  simp [zeroY]

@[simp] theorem startWindow_frame (s : State) :
    (startWindow s).link = s.link ∧ (startWindow s).mech = s.mech ∧ (startWindow s).queue = s.queue ∧
    (startWindow s).pool = s.pool ∧ (startWindow s).runner = s.runner ∧ (startWindow s).carriage = s.carriage ∧
    (startWindow s).driver = s.driver ∧ (startWindow s).heat = s.heat ∧ (startWindow s).paper = s.paper ∧
    (startWindow s).forms = s.forms ∧ (startWindow s).events = s.events ∧ (startWindow s).pins = s.pins ∧
    (startWindow s).outputs = s.outputs ∧ (startWindow s).pending = s.pending := by
  simp [startWindow]

@[simp] theorem carryImage_frame (tag : Byte) (p : Pass) (o : Nat) (dots : List Rows) (missing : List Nat) (s : State) :
    (carryImage tag p o dots missing s).link = s.link ∧ (carryImage tag p o dots missing s).mech = s.mech ∧
    (carryImage tag p o dots missing s).runner = s.runner ∧
    (carryImage tag p o dots missing s).carriage = s.carriage ∧
    (carryImage tag p o dots missing s).driver = s.driver ∧ (carryImage tag p o dots missing s).heat = s.heat ∧
    (carryImage tag p o dots missing s).paper = s.paper ∧ (carryImage tag p o dots missing s).forms = s.forms ∧
    (carryImage tag p o dots missing s).events = s.events ∧ (carryImage tag p o dots missing s).pins = s.pins ∧
    (carryImage tag p o dots missing s).outputs = s.outputs ∧
    (carryImage tag p o dots missing s).pending = s.pending := by
  simp [carryImage]

@[simp] theorem removeEntry_frame (e : Entry) (s : State) :
    (removeEntry e s).link = s.link ∧ (removeEntry e s).mech = s.mech ∧ (removeEntry e s).runner = s.runner ∧
    (removeEntry e s).carriage = s.carriage ∧ (removeEntry e s).driver = s.driver ∧ (removeEntry e s).heat = s.heat ∧
    (removeEntry e s).paper = s.paper ∧ (removeEntry e s).forms = s.forms ∧ (removeEntry e s).events = s.events ∧
    (removeEntry e s).time = s.time ∧ (removeEntry e s).pins = s.pins ∧ (removeEntry e s).outputs = s.outputs ∧
    (removeEntry e s).pending = s.pending := by
  simp [removeEntry]

@[simp] theorem recordAborted_frame (s : State) :
    (recordAborted s).link = s.link ∧ (recordAborted s).mech = s.mech ∧ (recordAborted s).queue = s.queue ∧
    (recordAborted s).pool = s.pool ∧ (recordAborted s).runner = s.runner ∧ (recordAborted s).carriage = s.carriage ∧
    (recordAborted s).driver = s.driver ∧ (recordAborted s).heat = s.heat ∧ (recordAborted s).paper = s.paper ∧
    (recordAborted s).forms = s.forms ∧ (recordAborted s).time = s.time ∧ (recordAborted s).pins = s.pins ∧
    (recordAborted s).outputs = s.outputs ∧ (recordAborted s).pending = s.pending := by
  unfold recordAborted; (repeat' split) <;> simp

@[simp] theorem emptyQueue_frame (s : State) :
    (emptyQueue s).link = s.link ∧ (emptyQueue s).mech = s.mech ∧ (emptyQueue s).runner = s.runner ∧
    (emptyQueue s).carriage = s.carriage ∧ (emptyQueue s).driver = s.driver ∧ (emptyQueue s).heat = s.heat ∧
    (emptyQueue s).paper = s.paper ∧ (emptyQueue s).forms = s.forms ∧ (emptyQueue s).events = s.events ∧
    (emptyQueue s).pins = s.pins ∧ (emptyQueue s).outputs = s.outputs ∧ (emptyQueue s).pending = s.pending := by
  simp [emptyQueue]

@[simp] theorem abortAll_frame (s : State) :
    (abortAll s).link = s.link ∧ (abortAll s).mech = s.mech ∧ (abortAll s).heat = s.heat ∧
    (abortAll s).forms = s.forms ∧ (abortAll s).pins = s.pins ∧ (abortAll s).outputs = s.outputs ∧
    (abortAll s).pending = s.pending := by
  unfold abortAll; split <;> simp

@[simp] theorem reqIdentify_frame (s : State) :
    (reqIdentify s).state.link = s.link ∧ (reqIdentify s).state.mech = s.mech ∧
    (reqIdentify s).state.queue = s.queue ∧ (reqIdentify s).state.pool = s.pool ∧
    (reqIdentify s).state.runner = s.runner ∧ (reqIdentify s).state.carriage = s.carriage ∧
    (reqIdentify s).state.driver = s.driver ∧ (reqIdentify s).state.heat = s.heat ∧
    (reqIdentify s).state.paper = s.paper ∧ (reqIdentify s).state.forms = s.forms ∧
    (reqIdentify s).state.events = s.events ∧ (reqIdentify s).state.time = s.time ∧
    (reqIdentify s).state.pins = s.pins ∧ (reqIdentify s).state.outputs = s.outputs ∧
    (reqIdentify s).state.pending = s.pending := by
  simp [reqIdentify]

@[simp] theorem reqGetStatus_frame (s : State) :
    (reqGetStatus s).state.link = s.link ∧ (reqGetStatus s).state.mech = s.mech ∧
    (reqGetStatus s).state.queue = s.queue ∧ (reqGetStatus s).state.pool = s.pool ∧
    (reqGetStatus s).state.runner = s.runner ∧ (reqGetStatus s).state.carriage = s.carriage ∧
    (reqGetStatus s).state.driver = s.driver ∧ (reqGetStatus s).state.heat = s.heat ∧
    (reqGetStatus s).state.paper = s.paper ∧ (reqGetStatus s).state.forms = s.forms ∧
    (reqGetStatus s).state.events = s.events ∧ (reqGetStatus s).state.time = s.time ∧
    (reqGetStatus s).state.pins = s.pins ∧ (reqGetStatus s).state.outputs = s.outputs ∧
    (reqGetStatus s).state.pending = s.pending := by
  simp [reqGetStatus]

@[simp] theorem reqReadEvents_frame (s : State) :
    (reqReadEvents s).state.link = s.link ∧ (reqReadEvents s).state.mech = s.mech ∧
    (reqReadEvents s).state.queue = s.queue ∧ (reqReadEvents s).state.pool = s.pool ∧
    (reqReadEvents s).state.runner = s.runner ∧ (reqReadEvents s).state.carriage = s.carriage ∧
    (reqReadEvents s).state.driver = s.driver ∧ (reqReadEvents s).state.heat = s.heat ∧
    (reqReadEvents s).state.paper = s.paper ∧ (reqReadEvents s).state.forms = s.forms ∧
    (reqReadEvents s).state.time = s.time ∧ (reqReadEvents s).state.pins = s.pins ∧
    (reqReadEvents s).state.outputs = s.outputs ∧ (reqReadEvents s).state.pending = s.pending := by
  simp [reqReadEvents]

@[simp] theorem reqSetAttnMask_frame (m : Word) (s : State) :
    (reqSetAttnMask m s).state.link = s.link ∧ (reqSetAttnMask m s).state.mech = s.mech ∧
    (reqSetAttnMask m s).state.queue = s.queue ∧ (reqSetAttnMask m s).state.pool = s.pool ∧
    (reqSetAttnMask m s).state.runner = s.runner ∧ (reqSetAttnMask m s).state.carriage = s.carriage ∧
    (reqSetAttnMask m s).state.driver = s.driver ∧ (reqSetAttnMask m s).state.heat = s.heat ∧
    (reqSetAttnMask m s).state.paper = s.paper ∧ (reqSetAttnMask m s).state.forms = s.forms ∧
    (reqSetAttnMask m s).state.time = s.time ∧ (reqSetAttnMask m s).state.pins = s.pins ∧
    (reqSetAttnMask m s).state.outputs = s.outputs ∧ (reqSetAttnMask m s).state.pending = s.pending := by
  simp [reqSetAttnMask]

@[simp] theorem reqReset_frame (s : State) :
    (reqReset s).state.mech = s.mech ∧ (reqReset s).state.queue = s.queue ∧ (reqReset s).state.pool = s.pool ∧
    (reqReset s).state.runner = s.runner ∧ (reqReset s).state.carriage = s.carriage ∧
    (reqReset s).state.driver = s.driver ∧ (reqReset s).state.heat = s.heat ∧ (reqReset s).state.paper = s.paper ∧
    (reqReset s).state.forms = s.forms ∧ (reqReset s).state.events = s.events ∧ (reqReset s).state.time = s.time ∧
    (reqReset s).state.pins = s.pins ∧ (reqReset s).state.outputs = s.outputs ∧
    (reqReset s).state.pending = s.pending := by
  simp [reqReset]

@[simp] theorem reqSetMech_frame (r : MechRequest) (s : State) :
    (reqSetMech r s).state.link = s.link ∧ (reqSetMech r s).state.queue = s.queue ∧
    (reqSetMech r s).state.pool = s.pool ∧ (reqSetMech r s).state.runner = s.runner ∧
    (reqSetMech r s).state.carriage = s.carriage ∧ (reqSetMech r s).state.driver = s.driver ∧
    (reqSetMech r s).state.heat = s.heat ∧ (reqSetMech r s).state.paper = s.paper ∧
    (reqSetMech r s).state.forms = s.forms ∧ (reqSetMech r s).state.events = s.events ∧
    (reqSetMech r s).state.time = s.time ∧ (reqSetMech r s).state.pins = s.pins ∧
    (reqSetMech r s).state.outputs = s.outputs ∧ (reqSetMech r s).state.pending = s.pending := by
  unfold reqSetMech; dsimp only [accept, refuse]; (repeat' split) <;> simp

@[simp] theorem reqSetPinMap_frame (outs : List Byte) (s : State) :
    (reqSetPinMap outs s).state.link = s.link ∧ (reqSetPinMap outs s).state.mech = s.mech ∧
    (reqSetPinMap outs s).state.queue = s.queue ∧ (reqSetPinMap outs s).state.pool = s.pool ∧
    (reqSetPinMap outs s).state.runner = s.runner ∧ (reqSetPinMap outs s).state.carriage = s.carriage ∧
    (reqSetPinMap outs s).state.heat = s.heat ∧ (reqSetPinMap outs s).state.paper = s.paper ∧
    (reqSetPinMap outs s).state.forms = s.forms ∧ (reqSetPinMap outs s).state.events = s.events ∧
    (reqSetPinMap outs s).state.time = s.time ∧ (reqSetPinMap outs s).state.pins = s.pins ∧
    (reqSetPinMap outs s).state.outputs = s.outputs ∧ (reqSetPinMap outs s).state.pending = s.pending := by
  unfold reqSetPinMap; dsimp only [accept, refuse]; (repeat' split) <;> simp

@[simp] theorem reqDefineForm_frame (r : FormRequest) (s : State) :
    (reqDefineForm r s).state.link = s.link ∧ (reqDefineForm r s).state.mech = s.mech ∧
    (reqDefineForm r s).state.queue = s.queue ∧ (reqDefineForm r s).state.pool = s.pool ∧
    (reqDefineForm r s).state.runner = s.runner ∧ (reqDefineForm r s).state.carriage = s.carriage ∧
    (reqDefineForm r s).state.driver = s.driver ∧ (reqDefineForm r s).state.heat = s.heat ∧
    (reqDefineForm r s).state.events = s.events ∧ (reqDefineForm r s).state.pins = s.pins ∧
    (reqDefineForm r s).state.outputs = s.outputs ∧ (reqDefineForm r s).state.pending = s.pending := by
  unfold reqDefineForm; dsimp only [accept, refuse]; (repeat' split) <;> simp

@[simp] theorem reqReadForm_frame (slot : Byte) (s : State) :
    (reqReadForm slot s).state.link = s.link ∧ (reqReadForm slot s).state.mech = s.mech ∧
    (reqReadForm slot s).state.queue = s.queue ∧ (reqReadForm slot s).state.pool = s.pool ∧
    (reqReadForm slot s).state.runner = s.runner ∧ (reqReadForm slot s).state.carriage = s.carriage ∧
    (reqReadForm slot s).state.driver = s.driver ∧ (reqReadForm slot s).state.heat = s.heat ∧
    (reqReadForm slot s).state.paper = s.paper ∧ (reqReadForm slot s).state.forms = s.forms ∧
    (reqReadForm slot s).state.events = s.events ∧ (reqReadForm slot s).state.time = s.time ∧
    (reqReadForm slot s).state.pins = s.pins ∧ (reqReadForm slot s).state.outputs = s.outputs ∧
    (reqReadForm slot s).state.pending = s.pending := by
  unfold reqReadForm; dsimp only [accept, refuse]; (repeat' split) <;> simp

@[simp] theorem reqSelectForm_frame (slot : Byte) (s : State) :
    (reqSelectForm slot s).state.link = s.link ∧ (reqSelectForm slot s).state.mech = s.mech ∧
    (reqSelectForm slot s).state.queue = s.queue ∧ (reqSelectForm slot s).state.pool = s.pool ∧
    (reqSelectForm slot s).state.runner = s.runner ∧ (reqSelectForm slot s).state.carriage = s.carriage ∧
    (reqSelectForm slot s).state.driver = s.driver ∧ (reqSelectForm slot s).state.heat = s.heat ∧
    (reqSelectForm slot s).state.events = s.events ∧ (reqSelectForm slot s).state.pins = s.pins ∧
    (reqSelectForm slot s).state.outputs = s.outputs ∧ (reqSelectForm slot s).state.pending = s.pending := by
  unfold reqSelectForm; dsimp only [accept, refuse]; (repeat' split) <;> simp

@[simp] theorem reqSetTof_frame (s : State) :
    (reqSetTof s).state.link = s.link ∧ (reqSetTof s).state.mech = s.mech ∧ (reqSetTof s).state.queue = s.queue ∧
    (reqSetTof s).state.pool = s.pool ∧ (reqSetTof s).state.runner = s.runner ∧
    (reqSetTof s).state.carriage = s.carriage ∧ (reqSetTof s).state.driver = s.driver ∧
    (reqSetTof s).state.heat = s.heat ∧ (reqSetTof s).state.forms = s.forms ∧ (reqSetTof s).state.events = s.events ∧
    (reqSetTof s).state.pins = s.pins ∧ (reqSetTof s).state.outputs = s.outputs ∧
    (reqSetTof s).state.pending = s.pending := by
  unfold reqSetTof; dsimp only [accept, refuse]; (repeat' split) <;> simp

@[simp] theorem reqHome_frame (s : State) :
    (reqHome s).state.link = s.link ∧ (reqHome s).state.mech = s.mech ∧ (reqHome s).state.queue = s.queue ∧
    (reqHome s).state.pool = s.pool ∧ (reqHome s).state.runner = s.runner ∧ (reqHome s).state.driver = s.driver ∧
    (reqHome s).state.heat = s.heat ∧ (reqHome s).state.paper = s.paper ∧ (reqHome s).state.forms = s.forms ∧
    (reqHome s).state.events = s.events ∧ (reqHome s).state.pins = s.pins ∧ (reqHome s).state.outputs = s.outputs ∧
    (reqHome s).state.pending = s.pending := by
  unfold reqHome; dsimp only [accept, refuse]; (repeat' split) <;> simp

@[simp] theorem reqOpenPass_frame (r : PassRequest) (s : State) :
    (reqOpenPass r s).state.link = s.link ∧ (reqOpenPass r s).state.mech = s.mech ∧
    (reqOpenPass r s).state.pool = s.pool ∧ (reqOpenPass r s).state.runner = s.runner ∧
    (reqOpenPass r s).state.carriage = s.carriage ∧ (reqOpenPass r s).state.driver = s.driver ∧
    (reqOpenPass r s).state.heat = s.heat ∧ (reqOpenPass r s).state.paper = s.paper ∧
    (reqOpenPass r s).state.forms = s.forms ∧ (reqOpenPass r s).state.events = s.events ∧
    (reqOpenPass r s).state.pins = s.pins ∧ (reqOpenPass r s).state.outputs = s.outputs ∧
    (reqOpenPass r s).state.pending = s.pending := by
  unfold reqOpenPass; dsimp only [accept, refuse]; (repeat' split) <;> simp

@[simp] theorem reqImage_frame (tag : Byte) (o : Half) (k : Byte) (data : List Byte) (s : State) :
    (reqImage tag o k data s).state.link = s.link ∧ (reqImage tag o k data s).state.mech = s.mech ∧
    (reqImage tag o k data s).state.runner = s.runner ∧ (reqImage tag o k data s).state.carriage = s.carriage ∧
    (reqImage tag o k data s).state.driver = s.driver ∧ (reqImage tag o k data s).state.heat = s.heat ∧
    (reqImage tag o k data s).state.paper = s.paper ∧ (reqImage tag o k data s).state.forms = s.forms ∧
    (reqImage tag o k data s).state.events = s.events ∧ (reqImage tag o k data s).state.pins = s.pins ∧
    (reqImage tag o k data s).state.outputs = s.outputs ∧ (reqImage tag o k data s).state.pending = s.pending := by
  unfold reqImage; dsimp only [accept, refuse]; (repeat' split) <;> simp

@[simp] theorem reqClosePass_frame (tag : Byte) (s : State) :
    (reqClosePass tag s).state.link = s.link ∧ (reqClosePass tag s).state.mech = s.mech ∧
    (reqClosePass tag s).state.pool = s.pool ∧ (reqClosePass tag s).state.runner = s.runner ∧
    (reqClosePass tag s).state.carriage = s.carriage ∧ (reqClosePass tag s).state.driver = s.driver ∧
    (reqClosePass tag s).state.heat = s.heat ∧ (reqClosePass tag s).state.paper = s.paper ∧
    (reqClosePass tag s).state.forms = s.forms ∧ (reqClosePass tag s).state.events = s.events ∧
    (reqClosePass tag s).state.pins = s.pins ∧ (reqClosePass tag s).state.outputs = s.outputs ∧
    (reqClosePass tag s).state.pending = s.pending := by
  unfold reqClosePass; dsimp only [accept, refuse]; (repeat' split) <;> simp

@[simp] theorem reqQueueAdvance_frame (tag : Byte) (n : Half) (flags : Byte) (s : State) :
    (reqQueueAdvance tag n flags s).state.link = s.link ∧ (reqQueueAdvance tag n flags s).state.mech = s.mech ∧
    (reqQueueAdvance tag n flags s).state.pool = s.pool ∧ (reqQueueAdvance tag n flags s).state.runner = s.runner ∧
    (reqQueueAdvance tag n flags s).state.carriage = s.carriage ∧
    (reqQueueAdvance tag n flags s).state.driver = s.driver ∧ (reqQueueAdvance tag n flags s).state.heat = s.heat ∧
    (reqQueueAdvance tag n flags s).state.paper = s.paper ∧ (reqQueueAdvance tag n flags s).state.forms = s.forms ∧
    (reqQueueAdvance tag n flags s).state.events = s.events ∧ (reqQueueAdvance tag n flags s).state.pins = s.pins ∧
    (reqQueueAdvance tag n flags s).state.outputs = s.outputs ∧
    (reqQueueAdvance tag n flags s).state.pending = s.pending := by
  unfold reqQueueAdvance; dsimp only [accept, refuse]; (repeat' split) <;> simp

@[simp] theorem reqCancelEntry_frame (tag : Byte) (s : State) :
    (reqCancelEntry tag s).state.link = s.link ∧ (reqCancelEntry tag s).state.mech = s.mech ∧
    (reqCancelEntry tag s).state.runner = s.runner ∧ (reqCancelEntry tag s).state.carriage = s.carriage ∧
    (reqCancelEntry tag s).state.driver = s.driver ∧ (reqCancelEntry tag s).state.heat = s.heat ∧
    (reqCancelEntry tag s).state.paper = s.paper ∧ (reqCancelEntry tag s).state.forms = s.forms ∧
    (reqCancelEntry tag s).state.events = s.events ∧ (reqCancelEntry tag s).state.pins = s.pins ∧
    (reqCancelEntry tag s).state.outputs = s.outputs ∧ (reqCancelEntry tag s).state.pending = s.pending := by
  unfold reqCancelEntry; dsimp only [accept, refuse]; (repeat' split) <;> simp

@[simp] theorem reqPause_frame (s : State) :
    (reqPause s).state.link = s.link ∧ (reqPause s).state.mech = s.mech ∧ (reqPause s).state.pool = s.pool ∧
    (reqPause s).state.heat = s.heat ∧ (reqPause s).state.paper = s.paper ∧ (reqPause s).state.forms = s.forms ∧
    (reqPause s).state.events = s.events ∧ (reqPause s).state.pins = s.pins ∧
    (reqPause s).state.outputs = s.outputs ∧ (reqPause s).state.pending = s.pending := by
  simp [reqPause]

@[simp] theorem reqResume_frame (s : State) :
    (reqResume s).state.link = s.link ∧ (reqResume s).state.mech = s.mech ∧ (reqResume s).state.queue = s.queue ∧
    (reqResume s).state.pool = s.pool ∧ (reqResume s).state.carriage = s.carriage ∧
    (reqResume s).state.driver = s.driver ∧ (reqResume s).state.heat = s.heat ∧ (reqResume s).state.paper = s.paper ∧
    (reqResume s).state.forms = s.forms ∧ (reqResume s).state.events = s.events ∧ (reqResume s).state.pins = s.pins ∧
    (reqResume s).state.outputs = s.outputs ∧ (reqResume s).state.pending = s.pending := by
  simp [reqResume]

@[simp] theorem reqAbort_frame (s : State) :
    (reqAbort s).state.link = s.link ∧ (reqAbort s).state.mech = s.mech ∧ (reqAbort s).state.heat = s.heat ∧
    (reqAbort s).state.forms = s.forms ∧ (reqAbort s).state.pins = s.pins ∧ (reqAbort s).state.outputs = s.outputs ∧
    (reqAbort s).state.pending = s.pending := by
  simp [reqAbort]

@[simp] theorem reqClearFault_frame (s : State) :
    (reqClearFault s).state.link = s.link ∧ (reqClearFault s).state.mech = s.mech ∧
    (reqClearFault s).state.queue = s.queue ∧ (reqClearFault s).state.pool = s.pool ∧
    (reqClearFault s).state.driver = s.driver ∧ (reqClearFault s).state.heat = s.heat ∧
    (reqClearFault s).state.paper = s.paper ∧ (reqClearFault s).state.forms = s.forms ∧
    (reqClearFault s).state.events = s.events ∧ (reqClearFault s).state.pins = s.pins ∧
    (reqClearFault s).state.outputs = s.outputs ∧ (reqClearFault s).state.pending = s.pending := by
  unfold reqClearFault; dsimp only [accept, refuse]; (repeat' split) <;> simp

/-! ## Machine/Link.lean -/

@[simp] theorem queueReply_frame (f : List Byte) (s : State) :
    (queueReply f s).mech = s.mech ∧ (queueReply f s).queue = s.queue ∧ (queueReply f s).pool = s.pool ∧
    (queueReply f s).runner = s.runner ∧ (queueReply f s).carriage = s.carriage ∧
    (queueReply f s).driver = s.driver ∧ (queueReply f s).heat = s.heat ∧ (queueReply f s).paper = s.paper ∧
    (queueReply f s).forms = s.forms ∧ (queueReply f s).events = s.events ∧ (queueReply f s).time = s.time ∧
    (queueReply f s).pins = s.pins ∧ (queueReply f s).outputs = s.outputs ∧ (queueReply f s).pending = s.pending := by
  simp [queueReply]

@[simp] theorem clearAssembler_frame (s : State) :
    (clearAssembler s).mech = s.mech ∧ (clearAssembler s).queue = s.queue ∧ (clearAssembler s).pool = s.pool ∧
    (clearAssembler s).runner = s.runner ∧ (clearAssembler s).carriage = s.carriage ∧
    (clearAssembler s).driver = s.driver ∧ (clearAssembler s).heat = s.heat ∧ (clearAssembler s).paper = s.paper ∧
    (clearAssembler s).forms = s.forms ∧ (clearAssembler s).events = s.events ∧ (clearAssembler s).pins = s.pins ∧
    (clearAssembler s).outputs = s.outputs ∧ (clearAssembler s).pending = s.pending := by
  simp [clearAssembler]

@[simp] theorem rejectFrame_frame (r : Byte) (s : State) :
    (rejectFrame r s).mech = s.mech ∧ (rejectFrame r s).queue = s.queue ∧ (rejectFrame r s).pool = s.pool ∧
    (rejectFrame r s).runner = s.runner ∧ (rejectFrame r s).carriage = s.carriage ∧
    (rejectFrame r s).driver = s.driver ∧ (rejectFrame r s).heat = s.heat ∧ (rejectFrame r s).paper = s.paper ∧
    (rejectFrame r s).forms = s.forms ∧ (rejectFrame r s).pins = s.pins ∧ (rejectFrame r s).outputs = s.outputs ∧
    (rejectFrame r s).pending = s.pending := by
  unfold rejectFrame; (repeat' split) <;> simp

@[simp] theorem storeByte_frame (b : Byte) (a : Assembler) (s : State) :
    (storeByte b a s).mech = s.mech ∧ (storeByte b a s).queue = s.queue ∧ (storeByte b a s).pool = s.pool ∧
    (storeByte b a s).runner = s.runner ∧ (storeByte b a s).carriage = s.carriage ∧
    (storeByte b a s).driver = s.driver ∧ (storeByte b a s).heat = s.heat ∧ (storeByte b a s).paper = s.paper ∧
    (storeByte b a s).forms = s.forms ∧ (storeByte b a s).events = s.events ∧ (storeByte b a s).pins = s.pins ∧
    (storeByte b a s).outputs = s.outputs ∧ (storeByte b a s).pending = s.pending := by
  simp [storeByte]

/-! ## Machine/Reset.lean -/

@[simp] theorem sampleStraps_frame (b a : Bool) (s : State) :
    (sampleStraps b a s).mech = s.mech ∧ (sampleStraps b a s).queue = s.queue ∧ (sampleStraps b a s).pool = s.pool ∧
    (sampleStraps b a s).runner = s.runner ∧ (sampleStraps b a s).carriage = s.carriage ∧
    (sampleStraps b a s).driver = s.driver ∧ (sampleStraps b a s).heat = s.heat ∧
    (sampleStraps b a s).paper = s.paper ∧ (sampleStraps b a s).forms = s.forms ∧
    (sampleStraps b a s).events = s.events ∧ (sampleStraps b a s).time = s.time ∧
    (sampleStraps b a s).outputs = s.outputs ∧ (sampleStraps b a s).pending = s.pending := by
  simp [sampleStraps]

@[simp] theorem readPaperSensor_frame (s : State) :
    (readPaperSensor s).link = s.link ∧ (readPaperSensor s).mech = s.mech ∧ (readPaperSensor s).queue = s.queue ∧
    (readPaperSensor s).pool = s.pool ∧ (readPaperSensor s).runner = s.runner ∧
    (readPaperSensor s).carriage = s.carriage ∧ (readPaperSensor s).driver = s.driver ∧
    (readPaperSensor s).heat = s.heat ∧ (readPaperSensor s).forms = s.forms ∧ (readPaperSensor s).time = s.time ∧
    (readPaperSensor s).pins = s.pins ∧ (readPaperSensor s).outputs = s.outputs ∧
    (readPaperSensor s).pending = s.pending := by
  unfold readPaperSensor; (repeat' split) <;> simp

@[simp] theorem endReset_frame (b a : Bool) (s : State) :
    (endReset b a s).mech = s.mech ∧ (endReset b a s).queue = s.queue ∧ (endReset b a s).pool = s.pool ∧
    (endReset b a s).runner = s.runner ∧ (endReset b a s).carriage = s.carriage ∧
    (endReset b a s).driver = s.driver ∧ (endReset b a s).heat = s.heat ∧ (endReset b a s).forms = s.forms ∧
    (endReset b a s).outputs = s.outputs ∧ (endReset b a s).pending = s.pending := by
  simp [endReset]

@[simp] theorem msTick_frame (s : State) :
    (msTick s).link = s.link ∧ (msTick s).mech = s.mech ∧ (msTick s).queue = s.queue ∧ (msTick s).pool = s.pool ∧
    (msTick s).runner = s.runner ∧ (msTick s).carriage = s.carriage ∧ (msTick s).driver = s.driver ∧
    (msTick s).heat = s.heat ∧ (msTick s).paper = s.paper ∧ (msTick s).forms = s.forms ∧
    (msTick s).events = s.events ∧ (msTick s).pins = s.pins ∧ (msTick s).outputs = s.outputs ∧
    (msTick s).pending = s.pending := by
  simp [msTick]

@[simp] theorem windowTimerExpiry_frame (s : State) :
    (windowTimerExpiry s).link = s.link ∧ (windowTimerExpiry s).mech = s.mech ∧ (windowTimerExpiry s).pool = s.pool ∧
    (windowTimerExpiry s).runner = s.runner ∧ (windowTimerExpiry s).carriage = s.carriage ∧
    (windowTimerExpiry s).driver = s.driver ∧ (windowTimerExpiry s).heat = s.heat ∧
    (windowTimerExpiry s).paper = s.paper ∧ (windowTimerExpiry s).forms = s.forms ∧
    (windowTimerExpiry s).pins = s.pins ∧ (windowTimerExpiry s).outputs = s.outputs ∧
    (windowTimerExpiry s).pending = s.pending := by
  unfold windowTimerExpiry; split <;> simp

end Sys2Proof.Machine
end

