-- ==== Sys2Proof/Laws/Ops.lean ====
section
/-! SUPPORT. What each shared operation can do, said once: equations by case, and the tests the commands branch on in
plain words. A proof about a command cites these and does not unfold the operation. -/

namespace Sys2Proof.Machine

/-! ## The line -/

@[simp] theorem lineChar_length (b : Byte) : (lineChar b).length = 10 := rfl

theorem flagsByte_bits : ∀ b : Byte, flagsByte [b.getLsbD 0, b.getLsbD 1, b.getLsbD 2, b.getLsbD 3, b.getLsbD 4,
    b.getLsbD 5, b.getLsbD 6, b.getLsbD 7] = b := by decide +kernel

theorem rxdCommands_held (n : Nat) (rest : List Bool) :
    rxdCommands .held (List.replicate n false ++ true :: rest) = rxdCommands .waiting rest := by
  induction n with
  | zero => simp [rxdCommands]
  | succ n ih => simpa [List.replicate_succ, rxdCommands] using ih

theorem rxdCommands_lineChar (b : Byte) (rest : List Bool) :
    rxdCommands .waiting (lineChar b ++ rest) = .byteReceived b :: rxdCommands .waiting rest := by
  have h := flagsByte_bits b
  simpa [lineChar, List.range_succ, rxdCommands] using h

theorem flatMap_lineChar_getElem (n : Nat) : ∀ (f : List Byte) (b : Byte), f[n]? = some b → ∀ i, i < 10 →
    (f.flatMap lineChar)[10 * n + i]? = (lineChar b)[i]? := by
  induction n with
  | zero =>
    intro f b h i hi
    cases f with
    | nil => simp at h
    | cons x t =>
      simp at h; subst h
      rw [List.flatMap_cons, List.getElem?_append_left (by simp; omega)]; simp
  | succ n ih =>
    intro f b h i hi
    cases f with
    | nil => simp at h
    | cons x t =>
      simp at h
      rw [List.flatMap_cons, List.getElem?_append_right (by simp; omega), ← ih t b h i hi]
      congr 1; simp; omega

theorem flatMap_lineChar_length (f : List Byte) : (f.flatMap lineChar).length = 10 * f.length := by
  induction f with
  | nil => rfl
  | cons x t ih => simp [List.flatMap_cons, ih]; omega

/-! ## The encoder channels -/

theorem quadDir_encA : ∀ k a b, quadDir k .encA a b = .fwd ↔ ((a = b) ↔ k = true) := by decide

theorem quadDir_encB : ∀ k a b, quadDir k .encB a b = .fwd ↔ quadDir k .encA a b = .rev := by decide

theorem edgeDir_encA (s : State) :
    edgeDir .encA s = .fwd ↔ ((s.pins.encA = s.pins.encB) ↔ Config.encALeads = true) := quadDir_encA _ _ _

theorem edgeDir_encB (s : State) : edgeDir .encB s = .fwd ↔ edgeDir .encA s = .rev := quadDir_encB _ _ _

/-- Either direction is that of an edge of one of the channels. -/
theorem exists_edgeDir (dir : Dir) (s : State) : ∃ q, edgeDir q s = dir := by
  have h := edgeDir_encB s
  rcases ha : edgeDir .encA s with _ | _ <;> rcases hb : edgeDir .encB s with _ | _ <;> rw [ha, hb] at h <;>
    cases dir <;> first | exact ⟨_, ha⟩ | exact ⟨_, hb⟩ | simp at h

theorem quadDir_turn_encA : ∀ k a b, quadDir k .encA (!a) b ≠ quadDir k .encA a b
    ∧ quadDir k .encB (!a) b = quadDir k .encA a b := by decide

theorem quadDir_turn_encB : ∀ k a b, quadDir k .encB a (!b) ≠ quadDir k .encB a b
    ∧ quadDir k .encA a (!b) = quadDir k .encB a b := by decide

/-- Edges in turn keep the direction, and an edge of the channel that had the last one goes back. -/
theorem edgeDir_turnQuad (q other : Quad) (s : State) :
    edgeDir other (turnQuad q s) = edgeDir q s ↔ other ≠ q := by
  cases q
  · have h := quadDir_turn_encA Config.encALeads s.pins.encA s.pins.encB
    cases other <;> simp [edgeDir, turnQuad, h.1, h.2]
  · have h := quadDir_turn_encB Config.encALeads s.pins.encA s.pins.encB
    cases other <;> simp [edgeDir, turnQuad, h.1, h.2]

@[simp] theorem turnQuad_setPins (q : Quad) (s : State) :
    (turnQuad q s).carriage = s.carriage ∧ (turnQuad q s).driver = s.driver ∧ (turnQuad q s).runner = s.runner ∧
    (turnQuad q s).time = s.time ∧ (turnQuad q s).queue = s.queue ∧ (turnQuad q s).pool = s.pool ∧
    (turnQuad q s).paper = s.paper ∧ (turnQuad q s).forms = s.forms ∧ (turnQuad q s).events = s.events ∧
    (turnQuad q s).heat = s.heat ∧ (turnQuad q s).mech = s.mech ∧ (turnQuad q s).link = s.link := by
  cases q <;> simp [turnQuad]

/-! ## Tests in plain words -/

theorem EntryState.started_iff (st : EntryState) : st.started = true ↔ st ≠ .opened ∧ st ≠ .ready := by
  cases st <;> simp [EntryState.started]

theorem anyStarted_iff (s : State) : anyStarted s = true ↔ ∃ e ∈ s.queue, e.state ≠ .opened ∧ e.state ≠ .ready := by
  simp [anyStarted, EntryState.started_iff]

theorem CarState.atRest_iff (c : CarState) : c.atRest = true ↔ c = .idle ∨ c = .unhomed := by
  cases c <;> simp [CarState.atRest]

theorem CarState.not_atRest_iff (c : CarState) : c.atRest = false ↔ c ≠ .idle ∧ c ≠ .unhomed := by
  cases c <;> simp [CarState.atRest]

theorem PaperState.inFlight_iff (p : PaperState) : p.inFlight = true ↔ p = .advancing ∨ p = .retracting := by
  cases p <;> simp [PaperState.inFlight]

theorem PaperState.not_inFlight_iff (p : PaperState) :
    p.inFlight = false ↔ p = .idle ∨ p = .tearParked ∨ p = .out := by
  cases p <;> simp [PaperState.inFlight]

theorem anyMotion_iff (s : State) : anyMotion s = true ↔
    (s.carriage.state ≠ .idle ∧ s.carriage.state ≠ .unhomed) ∨ s.paper.state = .advancing
      ∨ s.paper.state = .retracting := by
  simp [anyMotion, carriageAtRest, paperInFlight, CarState.not_atRest_iff, PaperState.inFlight_iff]

theorem configBusy_iff (s : State) : configBusy s = true ↔
    (∃ e ∈ s.queue, e.state ≠ .opened ∧ e.state ≠ .ready) ∨ s.runner.lookAhead ≠ none
      ∨ (s.carriage.state ≠ .idle ∧ s.carriage.state ≠ .unhomed) := by
  simp only [configBusy, Bool.or_eq_true, anyStarted_iff, carriageAtRest, Bool.not_eq_true', CarState.not_atRest_iff,
    or_assoc, ne_eq, Option.isSome_iff_ne_none]

theorem motionBusy_iff (s : State) : motionBusy s = true ↔
    s.paper.state = .advancing ∨ s.paper.state = .retracting
      ∨ (s.carriage.state ≠ .idle ∧ s.carriage.state ≠ .unhomed)
      ∨ ∃ e ∈ s.queue, e.state ≠ .opened ∧ e.state ≠ .ready := by
  simp only [motionBusy, Bool.or_eq_true, anyStarted_iff, carriageAtRest, paperInFlight, PaperState.inFlight_iff,
    Bool.not_eq_true', CarState.not_atRest_iff, or_assoc, ne_eq]

theorem held_iff (s : State) :
    held s = true ↔ s.runner.pause = true ∨ s.runner.fault ≠ none ∨ s.pins.coverOpen = true := by
  simp [held, or_assoc, Option.isSome_iff_ne_none]

theorem clearHoming_iff (s : State) : clearHoming s = true ↔
    s.runner.homingOwed = true ∨ ∃ h, s.carriage.homing = some h ∧ h.source = .clearFault := by
  unfold clearHoming
  rcases s.carriage.homing with _ | h <;> simp

theorem faultStopping_iff (s : State) : faultStopping s = true ↔
    (∃ m x, s.paper.motion = some m ∧ m.stop = some x ∧ x.cause = .fault)
      ∨ (s.carriage.state = .braking ∧ s.carriage.brake = some .halt) := by
  unfold faultStopping
  rcases s.paper.motion with _ | m
  · simp
  · rcases h : m.stop with _ | x <;> simp [h]

theorem recovering_iff (s : State) : recovering s = true ↔ clearHoming s = true ∨ faultStopping s = true := by
  simp [recovering]

theorem mayTakeUp_iff (s : State) : mayTakeUp s = true ↔ held s = false ∧ clearHoming s = false := by
  simp [mayTakeUp]

theorem mayTakeUp_of_free {s : State} (h : runnerFree s = true) : mayTakeUp s = true := by
  simp only [runnerFree, recovering, Bool.and_eq_true, Bool.not_eq_true', Bool.or_eq_false_iff] at h
  simp [mayTakeUp, h.1, h.2.1]

theorem runnerFree_iff (s : State) : runnerFree s = true ↔ held s = false ∧ recovering s = false := by
  simp [runnerFree]

theorem mayOrderFirst_iff (s : State) : mayOrderFirst s = true ↔
    (s.runner.firstOrderDue = true ∨ held s = false) ∧ recovering s = false := by
  simp [mayOrderFirst]

theorem mayOrderFirst_of_free {s : State} (h : runnerFree s = true) : mayOrderFirst s = true := by
  rw [runnerFree_iff] at h; simp [mayOrderFirst, h.1, h.2]

theorem advanceClear_of_rest {s : State} (h : carriageAtRest s = true) : advanceClear s = true := by
  simp [advanceClear, h]

theorem runnerFree_of_held {s : State} (h : held s = true) : runnerFree s = false := by simp [runnerFree, h]

theorem driverIdle_iff (s : State) : driverIdle s = true ↔
    s.driver.running = none ∧ s.driver.pendA = none ∧ s.driver.pendB = none := by
  simp [driverIdle, and_assoc]

theorem mayStart_iff (s : State) : mayStart s = true ↔
    s.carriage.state = .sweep ∧ s.carriage.pos ≠ none ∧ s.pins.coverOpen = false := by
  simp [mayStart, and_assoc, Option.isSome_iff_ne_none]

theorem Channel.exhausted_iff (c : Channel) : c.exhausted = true ↔ c.list.length ≤ c.next := by
  simp [Channel.exhausted]

theorem badLengthByte_iff (b : Byte) : badLengthByte b = true ↔ b.toNat = 0 ∨ 253 ≤ b.toNat := by
  simp [badLengthByte]

theorem linkOpen_iff (s : State) : linkOpen s = true ↔
    s.pins.resetLow = false ∧ s.link.resetPending = false ∧ s.link.fifo.length < 2 := by
  simp [linkOpen, and_assoc, Config.fifoCapacity]

theorem findEntry_eq_none {q : List Entry} {tag : Byte} : findEntry q tag = none ↔ ∀ e ∈ q, e.tag ≠ tag := by
  simp [findEntry]

theorem findEntry_isSome {q : List Entry} {tag : Byte} :
    (findEntry q tag).isSome = true ↔ ∃ e ∈ q, e.tag = tag := by
  simp [findEntry]

theorem findEntry_tag {q : List Entry} {tag : Byte} {e : Entry} (h : findEntry q tag = some e) :
    e ∈ q ∧ e.tag = tag := by
  simp only [findEntry] at h
  exact ⟨List.mem_of_find?_eq_some h, by simpa using List.find?_some h⟩

theorem headPrint_cons {s : State} {e : Entry} {rest : List Entry} {p : Pass} {st : EntryState}
    (hq : s.queue = e :: rest) (hp : e.pass = some p) (hs : e.state = st) : headPrint s st = true := by
  simp [headPrint, hq, hp, hs]

/-! ## Sets of rows -/

theorem rowsWhere_foldl (p : Nat → Bool) (l : List Nat) (acc : Rows) (i : Nat) (hi : i < 24) :
    (l.foldl (fun acc r => if p r then acc ||| BitVec.twoPow 24 r else acc) acc).getLsbD i
      = (acc.getLsbD i || (l.contains i && p i)) := by
  induction l generalizing acc with
  | nil => simp
  | cons a t ih =>
    simp only [List.foldl_cons, ih]
    by_cases ha : i = a
    · subst ha; by_cases hp : p i <;> simp [hp, hi]
    · have : a ≠ i := fun h => ha h.symm
      by_cases hp : p a <;> simp [hp, BitVec.getLsbD_twoPow, ha, this]

/-- A row is in the set exactly when it is below 24 and passes the test. -/
theorem rowsWhere_getLsbD (p : Nat → Bool) (i : Nat) : (rowsWhere p).getLsbD i = (decide (i < 24) && p i) := by
  by_cases hi : i < 24
  · rw [rowsWhere, rowsWhere_foldl _ _ _ _ hi]; simp [hi]
  · simp [hi, BitVec.getLsbD_of_ge _ _ (Nat.le_of_not_lt hi)]

/-! ## Events, records, queue -/

theorem latch_eq (e : Event) (s : State) :
    latch e s = s.setEvents { s.events with latched := s.events.latched ||| BitVec.twoPow 12 e.bit } := rfl

theorem pushRecord_of_room {c : Completion} {s : State} (h : s.events.records.length < 8) :
    pushRecord c s = s.setEvents { s.events with records := s.events.records ++ [c] } := if_pos h

theorem pushRecord_of_full {c : Completion} {s : State} (h : ¬s.events.records.length < 8) :
    pushRecord c s = latch .recordOverwritten
      (s.setEvents { s.events with records := s.events.records.drop (s.events.records.length - 7) ++ [c] }) :=
  if_neg h

/-- A record joining never makes the list longer than 8. -/
theorem pushRecord_length (c : Completion) (s : State) : (pushRecord c s).events.records.length ≤ 8 := by
  by_cases h : s.events.records.length < 8
  · rw [pushRecord_of_room h]; simp; omega
  · rw [pushRecord_of_full h]; simp [latch]; omega

theorem mapHead_nil {f : Entry → Entry} {s : State} (h : s.queue = []) : mapHead f s = s := by simp [mapHead, h]

theorem mapHead_cons {f : Entry → Entry} {s : State} {e : Entry} {rest : List Entry} (h : s.queue = e :: rest) :
    mapHead f s = s.setQueue (f e :: rest) := by simp [mapHead, h]

theorem mapHeadPass_cons {f : Pass → Pass} {s : State} {e : Entry} {rest : List Entry} (h : s.queue = e :: rest) :
    mapHeadPass f s = s.setQueue ({ e with pass := e.pass.map f } :: rest) := mapHead_cons h

theorem setHeadState_cons {st : EntryState} {s : State} {e : Entry} {rest : List Entry} (h : s.queue = e :: rest) :
    setHeadState st s = s.setQueue ({ e with state := st } :: rest) := mapHead_cons h

theorem Pool.releaseAll_append (p : Pool) (a b : List (Option Nat)) :
    p.releaseAll (a ++ b) = (p.releaseAll a).releaseAll b := by
  induction a generalizing p with
  | nil => rfl
  | cons x t ih => cases x <;> simp [Pool.releaseAll, ih]

/-- A record joins a list of at most 8; at a full list the oldest goes and RECORD_OVERWRITTEN is latched. -/
theorem pushRecord_of_sound (c : Completion) {s : State} (h : s.events.records.length ≤ 8) :
    pushRecord c s = s.setEvents { s.events with
      latched := s.events.latched ||| (if s.events.records.length = 8 then 0x200#12 else 0#12)
      records := s.events.records.drop (if s.events.records.length = 8 then 1 else 0) ++ [c] } := by
  unfold pushRecord
  by_cases h8 : s.events.records.length = 8
  · simp [h8, Config.recordCapacity, latch, Event.bit]; rfl
  · have : s.events.records.length < 8 := by omega
    simp [h8, Config.recordCapacity, this]

/-- Giving back the blocks of several entries touches the pool alone. -/
theorem freeEntries_eq (l : List Entry) (s : State) :
    freeEntries l s = s.setPool (s.pool.releaseAll (l.flatMap Entry.slots)) := by
  induction l generalizing s with
  | nil => rfl
  | cons e t ih => simp [freeEntries, ih, freeEntry, Pool.releaseAll_append]

theorem retire_nil {s : State} (h : s.queue = []) : retire s = s := by simp [retire, h]

/-- Retirement: the record, the blocks, the place in the queue, the head phase, PASS_DONE; nothing else. -/
theorem retire_cons {s : State} {e : Entry} {rest : List Entry} (h : s.queue = e :: rest) :
    retire s = ((((s.setQueue rest).setPool (s.pool.releaseAll e.slots)).setRunner
        { s.runner with
          phase := .noPhase, point := .skipCheck, suspend := none, headPlan := none, firstOrderDue := false }).setEvents
      (latch .passDone (pushRecord (completionOf e .done s) s)).events) := by
  simp only [retire, h]
  by_cases hr : s.events.records.length < 8
  · rw [pushRecord_of_room hr]; rfl
  · rw [pushRecord_of_full hr]; rfl

/-! ## Timers -/

theorem startStall_eq (s : State) : startStall s = s.setTime { s.time with stall := some 20 } := rfl

theorem settleTear_of_not {s : State} (h : tearReady s = false) :
    settleTear s = s.setTime { s.time with tearIdle := none } := by simp [settleTear, h]

theorem settleTear_start {s : State} (h : tearReady s = true) (ht : s.time.tearIdle = none) :
    settleTear s = s.setTime { s.time with tearIdle := some (100 * tearIdleOf (activeProfile s)) } := by
  simp [settleTear, h, ht]

theorem settleTear_running {s : State} (h : tearReady s = true) {n : Nat} (ht : s.time.tearIdle = some n) :
    settleTear s = s := by simp [settleTear, h, ht]

/-- A queue with an entry keeps the tear timer stopped. -/
theorem tearReady_of_queue {s : State} (h : s.queue ≠ []) : tearReady s = false := by
  unfold tearReady
  rcases hq : s.queue <;> simp_all

/-- A paused runner keeps the tear timer stopped. -/
theorem tearReady_of_pause {s : State} (h : s.runner.pause = true) : tearReady s = false := by simp [tearReady, h]

/-- A latched fault keeps the tear timer stopped. -/
theorem tearReady_of_fault {s : State} (h : s.runner.fault ≠ none) : tearReady s = false := by
  simp [tearReady, Option.isNone_iff_eq_none, h]

/-! ## Paper orders and stops -/

theorem takeOrder_zero (p : Purpose) (s : State) :
    takeOrder p 0 s = reportDone p (if p = .retract then restPaper .idle s else s) := by simp [takeOrder]

theorem takeOrder_back {p : Purpose} {d : Int} {s : State} (h : d < 0) :
    takeOrder p d s = s.setPaper { s.paper with
      state := .retracting, park := none
      motion := some { purpose := p, distance := d, moved := 0, path := (activeProfile s).path, stop := none } } := by
  have h0 : d ≠ 0 := by omega
  have h1 : ¬0 < d := by omega
  simp [takeOrder, h0, h1]

theorem takeOrder_forward {p : Purpose} {d : Int} {s : State} (h : 0 < d) (hp : s.paper.pe ≠ some 0) :
    takeOrder p d s = s.setPaper { s.paper with
      state := .advancing, park := none
      motion := some { purpose := p, distance := d, moved := 0, path := (activeProfile s).path, stop := none } } := by
  have h0 : d ≠ 0 := by omega
  simp [takeOrder, h0, h, hp]

theorem takeOrder_at_end {p : Purpose} {d : Int} {s : State} (h : 0 < d) (hp : s.paper.pe = some 0) :
    takeOrder p d s = paperEndStop
      { purpose := p, distance := d, moved := 0, path := (activeProfile s).path, stop := none } s := by
  have h0 : d ≠ 0 := by omega
  simp [takeOrder, h0, h, hp]

theorem stopPaper_none {c : StopCause} {s : State} (h : s.paper.motion = none) : stopPaper c s = s := by
  simp [stopPaper, h]

theorem stopPaper_going {c : StopCause} {s : State} {m : Motion} (h : s.paper.motion = some m) (hs : m.stop = none) :
    stopPaper c s = s.setPaper { s.paper with
      motion := some { m with stop := some { cause := c, ramp := min 40 (m.distance.natAbs - m.moved) } } } := by
  simp [stopPaper, h, hs, Config.rampUnits]

theorem stopPaper_stopping {c : StopCause} {s : State} {m : Motion} {x : PaperStop} (h : s.paper.motion = some m)
    (hs : m.stop = some x) :
    stopPaper c s = s.setPaper { s.paper with
      motion := some { m with stop := some { x with cause := if c = .abort then .abort else x.cause } } } := by
  simp [stopPaper, h, hs]

theorem writeRemaining_of_ne {left : Int} {s : State} (h : left ≠ 0) :
    writeRemaining left s = mapHead (fun e => { e with remaining := some left }) s := if_neg h

theorem writeRemaining_zero (s : State) :
    writeRemaining 0 s = retire (mapHead (fun e => { e with remaining := none }) s) := if_pos rfl

/-- Forward and backward, the offset after a unit is Y ± 1 modulo the form length. -/
theorem offsetUnit_mod {len : Nat} (y : Nat) :
    ((offsetUnit true len y : Nat) : Int) = ((y : Int) + 1) % len
    ∧ (0 < len → ((offsetUnit false len y : Nat) : Int) = ((y : Int) - 1) % len) := by
  refine ⟨by simp [offsetUnit], fun h => ?_⟩
  simp only [offsetUnit, Bool.false_eq_true, if_false]
  rw [Int.natCast_emod, show ((y + len - 1 : Nat) : Int) = ((y : Int) - 1) + len by omega]
  simp

/-- The tractor remainder and the tractor steps of one unit are those of a + 2 or a − 2 divided by 3. -/
theorem tractorUnit_div {a : Nat} (h : a ≤ 2) :
    ((tractorUnit true a).1 : Int) = (a + 2) % 3 ∧ (tractorUnit true a).2 = (a + 2) / 3
    ∧ ((tractorUnit false a).1 : Int) = ((a : Int) - 2) % 3 ∧ (tractorUnit false a).2 = ((a : Int) - 2) / 3 := by
  rcases (by omega : a = 0 ∨ a = 1 ∨ a = 2) with rfl | rfl | rfl <;> decide

/-! ## Carriage -/

theorem giveOwedHoming_of_not_owed {s : State} (h : s.runner.homingOwed = false) : giveOwedHoming s = s := by
  simp [giveOwedHoming, h]

theorem giveOwedHoming_of_moving {s : State} (h : carriageAtRest s = false) : giveOwedHoming s = s := by
  simp [giveOwedHoming, h]

theorem giveOwedHoming_of_owed {s : State} (h : s.runner.homingOwed = true) (hr : carriageAtRest s = true) :
    giveOwedHoming s = homingOrder .clearFault (s.setRunner { s.runner with homingOwed := false }) := by
  simp [giveOwedHoming, h, hr]

theorem flushResume_of_running {s : State} {r : Running} (h : s.driver.running = some r) : flushResume s = s := by
  unfold flushResume; rcases hd : s.carriage.resumeDue <;> simp [h]

theorem flushResume_of_none {s : State} (h : s.carriage.resumeDue = none) : flushResume s = s := by
  simp [flushResume, h]

theorem flushResume_of_due {s : State} {d : ResumeDue} (h : s.carriage.resumeDue = some d)
    (hr : s.driver.running = none) :
    flushResume s = (mapHeadPass (fun p => { p with
        resumeA := some (resumeOf s.pool p .a d.listA)
        resumeB := some (resumeOf s.pool p .b d.listB) }) s).setCarriage { s.carriage with resumeDue := none } := by
  simp [flushResume, h, hr]

/-- Outside a run-up and a sweep a suspend trigger has no effect. -/
theorem suspendTrigger_elsewhere {r : SuspendReason} {s : State} (h : s.carriage.state ≠ .runup)
    (h' : s.carriage.state ≠ .sweep) : suspendTrigger r s = s := by
  unfold suspendTrigger
  rcases hc : s.carriage.state <;> simp_all

theorem suspendTrigger_runup {r : SuspendReason} {s : State} (h : s.carriage.state = .runup) :
    suspendTrigger r s = brakeFor (.suspend r (sweepGrade s)) s := by simp [suspendTrigger, h]

/-- A sweep with nothing left to match or to start is not stopped. -/
theorem suspendTrigger_spent {r : SuspendReason} {s : State} (h : s.carriage.state = .sweep)
    (ha : s.carriage.chanA.exhausted = true) (hb : s.carriage.chanB.exhausted = true) (hpa : s.driver.pendA = none)
    (hpb : s.driver.pendB = none) : suspendTrigger r s = s := by
  simp [suspendTrigger, h, ha, hb, hpa, hpb]

theorem suspendTrigger_sweep {r : SuspendReason} {s : State} (h : s.carriage.state = .sweep)
    (hw : s.carriage.chanA.exhausted = false ∨ s.carriage.chanB.exhausted = false ∨ s.driver.pendA ≠ none
      ∨ s.driver.pendB ≠ none) : suspendTrigger r s = stopSweep (.suspend r (sweepGrade s)) s := by
  simp only [suspendTrigger, h]
  rw [if_neg]
  simp only [Bool.and_eq_true, Option.isNone_iff_eq_none, not_and]
  intro ha hb
  rcases hw with hw | hw | hw | hw <;> simp_all

theorem checkSweepEnd_of_not {s : State} (h : s.carriage.state ≠ .sweep) : checkSweepEnd s = s := by
  simp [checkSweepEnd, h]

/-- A fault reaches the latch once, FAULT_RAISED is latched, and paper in flight is stopped. -/
theorem raiseFault_eq (code : FaultCode) (tag : Option Byte) (pos : Option Nat) (s : State) :
    raiseFault code tag pos s = stopPaper .fault (latch .faultRaised (s.setRunner { s.runner with
      fault := if s.runner.fault.isSome then s.runner.fault else some { code := code, tag := tag, pos := pos } })) := by
  unfold raiseFault
  by_cases h : s.runner.fault.isSome
  · simp only [h, if_true]; rfl
  · simp [h]

/-- The count an edge brings P to, inside the travel. -/
theorem moveCount_of_le {dir : Dir} {p q : Nat} (hd : (dir = .fwd ∧ q = p + 1) ∨ (dir = .rev ∧ p = q + 1))
    (hq : q ≤ 21599) : moveCount dir p = some q := by
  rcases hd with ⟨rfl, rfl⟩ | ⟨rfl, rfl⟩
  · exact if_pos hq
  · exact if_pos ⟨by omega, show q + 1 - 1 ≤ 21599 by omega⟩

/-! ## Head Driver and heat -/

theorem checkDriveFault_of_clear {s : State} (h : s.pins.driveFault = false) : checkDriveFault s = s := by
  simp [checkDriveFault, h]

theorem checkDriveFault_of_free {s : State} (h : s.driver.running = none) : checkDriveFault s = s := by
  simp [checkDriveFault, h]

theorem loseDots_of_orphan {b : Burst} {pairs : List (Nat × Nat)} {s : State} (h : b.orphan = true) :
    loseDots b pairs s = s := by simp [loseDots, h]

theorem loseDots_nil (b : Burst) (s : State) : loseDots b [] s = s := by simp [loseDots]

theorem loseDots_of_owed {b : Burst} {pairs : List (Nat × Nat)} {s : State} (h : b.orphan = false) (hp : pairs ≠ []) :
    loseDots b pairs s = latch .dotsLost (mapHeadPass (fun p => { p with dotsLost := p.dotsLost + pairs.length })
      (updateHeadColumn b.column (fun c => { c with lost := c.lost ||| pairRows pairs }) s)) := by
  simp [loseDots, h, hp]

/-- The column of the head's image that a change reaches, when its slot holds a block. -/
theorem updateHeadColumn_cons {c : Nat} {f : Column → Column} {s : State} {e : Entry} {rest : List Entry} {p : Pass}
    (h : s.queue = e :: rest) (hp : e.pass = some p) : updateHeadColumn c f s =
      ((p.address (c - p.start)).map (fun k => s.setPool (s.pool.write k (f (s.pool.read k))))).getD s := by
  unfold updateHeadColumn
  rcases hk : p.address (c - p.start) <;> simp [h, hp, hk]

/-- The burst that a match of a print entry at the head forms. -/
theorem formBurst_cons {s : State} {e : Entry} {rest : List Entry} {p : Pass} (h : s.queue = e :: rest)
    (hp : e.pass = some p) (ch : Chan) (c : Nat) : formBurst s ch c =
      { chan := ch, tag := e.tag, column := c
        groups := groupPairs s.mech (pairsOf s.driver.pinMap (chanOutstanding s.pool p ch c))
        order := s.driver.matchCount, orphan := false } := by
  simp [formBurst, headRows, headTag, h, hp]

/-- A match whose pending place is empty starts its burst or takes the place. -/
theorem takeMatch_of_none {ch : Chan} {c : Nat} {s : State} (h : s.driver.pend ch = none) : takeMatch ch c s =
    if s.driver.running.isNone && mayStart s then
      s.setDriver { s.driver with running := some { burst := formBurst s ch c, next := 0 } }
    else s.setDriver (s.driver.setPend ch (some (formBurst s ch c))) := by simp only [takeMatch, h]

/-- A match whose pending place is taken discards the older burst. -/
theorem takeMatch_of_waiting {ch : Chan} {c : Nat} {s : State} {old : Burst} (h : s.driver.pend ch = some old) :
    takeMatch ch c s = (loseDots old old.groups.flatten s).setDriver
      (s.driver.setPend ch (some (formBurst s ch c))) := by
  simp only [takeMatch, h, (loseDots_frame old old.groups.flatten s).2.2.2.2.1]

/-- After a match a burst runs or waits. -/
theorem driverIdle_takeMatch (ch : Chan) (c : Nat) (s : State) : driverIdle (takeMatch ch c s) = false := by
  rcases h : s.driver.pend ch with _ | old
  · rw [takeMatch_of_none h]
    split <;> cases ch <;> simp [driverIdle, Driver.setPend]
  · rw [takeMatch_of_waiting h]
    cases ch <;> simp [driverIdle, Driver.setPend]

/-- A sweep with something left to match, to start or to fire does not end. -/
theorem checkSweepEnd_of_work {s : State} (h : s.carriage.chanA.exhausted = false ∨ s.carriage.chanB.exhausted = false
    ∨ driverIdle s = false) : checkSweepEnd s = s :=
  if_neg (by rintro ⟨-, ha, hb, hd⟩; rcases h with h | h | h <;> simp_all)

/-- The resume column of a list none of whose columns is outstanding. -/
theorem resumeOf_done {pool : Pool} {p : Pass} {ch : Chan} {l : List Elem}
    (h : ∀ x ∈ l, chanOutstanding pool p ch x.column = 0#24) : resumeOf pool p ch l = .done := by
  have : l.find? (fun e => chanOutstanding pool p ch e.column != 0#24) = none := by
    rw [List.find?_eq_none]; intro x hx; simp [h x hx]
  simp [resumeOf, this]

/-- The resume column is the first that is still outstanding. -/
theorem resumeOf_first {pool : Pool} {p : Pass} {ch : Chan} {pre post : List Elem} {x : Elem}
    (h : ∀ y ∈ pre, chanOutstanding pool p ch y.column = 0#24) (hx : chanOutstanding pool p ch x.column ≠ 0#24) :
    resumeOf pool p ch (pre ++ x :: post) = .column x.column := by
  have : (pre ++ x :: post).find? (fun e => chanOutstanding pool p ch e.column != 0#24) = some x := by
    rw [List.find?_append, List.find?_eq_none.2 (by intro y hy; simp [h y hy])]
    simp [hx]
  simp [resumeOf, this]

/-- A resume column does not depend on the entry's counters and resume columns. -/
theorem resumeOf_congr {pool : Pool} {p q : Pass} (h : q.start = p.start ∧ q.span = p.span ∧ q.slots = p.slots
    ∧ q.suppressed = p.suppressed) (ch : Chan) (l : List Elem) : resumeOf pool q ch l = resumeOf pool p ch l := by
  obtain ⟨h1, h2, h3, h4⟩ := h
  have key : ∀ c, chanOutstanding pool q ch c = chanOutstanding pool p ch c := by
    intro c
    simp [chanOutstanding, outstanding, passColumn, Pass.address, h1, h2, h3, h4]
  simp [resumeOf, key]

theorem startPending_of_running {s : State} {r : Running} (h : s.driver.running = some r) : startPending s = s := by
  simp [startPending, h]

theorem startPending_of_barred {s : State} (h : mayStart s = false) : startPending s = s := by
  simp [startPending, h]

theorem chargeHeat_getD (h : List Nat) (p e q : Nat) (hp : p < h.length) :
    (chargeHeat h p e).getD q 0 = if q = p then min 16383 (h.getD p 0 + e) else h.getD q 0 := by
  by_cases hq : q = p
  · subst hq; simp [chargeHeat, hp, Config.heatMax]
  · have : p ≠ q := fun h => hq h.symm
    simp [chargeHeat, hq, this]

theorem chargePairs_length (e : Nat) (pairs : List (Nat × Nat)) (h : List Nat) :
    (chargePairs e pairs h).length = h.length := by
  induction pairs generalizing h with
  | nil => rfl
  | cons x t ih => simp [chargePairs, ih, chargeHeat]

/-- Hmax is an upper bound of the heat values, and is reached by one of them or is 0. -/
theorem hmaxOf_spec (h : List Nat) : (∀ x ∈ h, x ≤ hmaxOf h) ∧ (hmaxOf h = 0 ∨ hmaxOf h ∈ h) := by
  have key : ∀ (l : List Nat) (a : Nat), a ≤ l.foldl max a ∧ (∀ x ∈ l, x ≤ l.foldl max a)
      ∧ (l.foldl max a = a ∨ l.foldl max a ∈ l) := by
    intro l
    induction l with
    | nil => simp
    | cons b t ih =>
      intro a
      obtain ⟨h1, h2, h3⟩ := ih (max a b)
      refine ⟨by simp; omega, ?_, ?_⟩
      · intro x hx
        rcases List.mem_cons.1 hx with rfl | hx
        · simp; omega
        · exact h2 x hx
      · rcases h3 with h3 | h3
        · simp only [List.foldl_cons, h3, List.mem_cons]; omega
        · exact .inr (List.mem_cons_of_mem _ h3)
  obtain ⟨-, h2, h3⟩ := key h 0
  exact ⟨h2, h3⟩

/-! ## Taking a request -/

theorem fifoFull_iff (s : State) : fifoFull s = true ↔ 2 ≤ s.link.fifo.length :=
  decide_eq_true_iff

theorem takeRequest_of_low {k : Byte} {o : State → Verdict} {s : State} (h : s.pins.resetLow = true) :
    takeRequest k o s = s := by simp [takeRequest, h]

theorem takeRequest_of_pending {k : Byte} {o : State → Verdict} {s : State} (h : s.link.resetPending = true) :
    takeRequest k o s = s := by simp [takeRequest, h]

theorem takeRequest_of_full {k : Byte} {o : State → Verdict} {s : State} (hl : s.pins.resetLow = false)
    (hp : s.link.resetPending = false) (h : 2 ≤ s.link.fifo.length) : takeRequest k o s = latch .linkError s := by
  simp [takeRequest, hl, hp, (fifoFull_iff s).2 h]

/-- A request that is dispatched: its owner's verdict is the reply. -/
theorem takeRequest_of_open {k : Byte} {o : State → Verdict} {s : State} (h : linkOpen s = true) :
    takeRequest k o s = replied k (o s).code.byte (o s).data (o s).state := by
  obtain ⟨h1, h2, h3⟩ := (linkOpen_iff s).1 h
  have : fifoFull s = false := by rw [← Bool.not_eq_true, fifoFull_iff]; omega
  simp [takeRequest, h1, h2, this, replied]

/-- A rejected frame, reset pending: the assembler is cleared in silence. -/
theorem rejectFrame_of_pending {r : Byte} {s : State} (h : s.link.resetPending = true) :
    rejectFrame r s = clearAssembler s := by simp [rejectFrame, h]

theorem rejectFrame_of_full {r : Byte} {s : State} (hp : s.link.resetPending = false) (h : 2 ≤ s.link.fifo.length) :
    rejectFrame r s = latch .linkError (clearAssembler s) := by
  simp [rejectFrame, hp, (fifoFull_iff s).2 h]

theorem rejectFrame_of_room {r : Byte} {s : State} (hp : s.link.resetPending = false) (h : s.link.fifo.length < 2) :
    rejectFrame r s = latch .linkError (queueReply (frameOf 0xFF#8 [r]) (clearAssembler s)) := by
  have : fifoFull s = false := by rw [← Bool.not_eq_true, fifoFull_iff]; omega
  simp [rejectFrame, hp, this]

end Sys2Proof.Machine
end

