-- ==== Sys2Proof/Laws/Pool.lean ====
section
/-! SUPPORT. The Image Pool's cells: what a read gives after a write, and that every pool operation keeps the canonical
form. -/

namespace Sys2Proof.Machine

/-! ## Read after write -/

@[simp] theorem cellsRead_nil (k : Nat) : cellsRead [] k = Column.blank := rfl

theorem cellsWf_iff (l : List (Nat × Column)) :
    cellsWf l = true ↔ l.Pairwise (fun x y => x.1 < y.1) ∧ ∀ x ∈ l, x.2 ≠ Column.blank := by
  induction l with
  | nil => simp [cellsWf]
  | cons x t ih =>
    obtain ⟨a, c⟩ := x
    cases t with
    | nil => simp [cellsWf]
    | cons y u =>
      obtain ⟨b, d⟩ := y
      simp only [cellsWf, Bool.and_eq_true, decide_eq_true_eq, ih, List.pairwise_cons, List.mem_cons]
      constructor
      · rintro ⟨⟨hc, hab⟩, ⟨hb, hu⟩, hn⟩
        refine ⟨⟨?_, hb, hu⟩, ?_⟩
        · rintro z (rfl | hz)
          · exact hab
          · exact Nat.lt_trans hab (hb z hz)
        · rintro z (rfl | hz)
          · exact hc
          · exact hn z hz
      · rintro ⟨⟨ha, hb, hu⟩, hn⟩
        exact ⟨⟨hn _ (.inl rfl), ha _ (.inl rfl)⟩, ⟨hb, hu⟩, fun z hz => hn z (.inr hz)⟩

/-- An address below every listed one reads as blank. -/
theorem cellsRead_of_lt {l : List (Nat × Column)} {k : Nat} (h : ∀ x ∈ l, k < x.1) :
    cellsRead l k = Column.blank := by
  induction l with
  | nil => rfl
  | cons x t ih =>
    have hx := h x (.head _)
    simp only [cellsRead]
    rw [if_neg (by omega)]
    exact ih (fun y hy => h y (.tail _ hy))

theorem cellsRead_cellsWrite {l : List (Nat × Column)} (h : cellsWf l = true) (k j : Nat) (v : Column) :
    cellsRead (cellsWrite l k v) j = if j = k then v else cellsRead l j := by
  induction l with
  | nil =>
    simp only [cellsWrite]
    by_cases hv : v = Column.blank
    · rw [if_pos hv, cellsRead_nil, hv, ite_self]
    · rw [if_neg hv, cellsRead_nil]
      show (if k = j then v else Column.blank) = _
      by_cases hj : j = k
      · rw [if_pos hj.symm, if_pos hj]
      · rw [if_neg (Ne.symm hj), if_neg hj]
  | cons x t ih =>
    obtain ⟨a, c⟩ := x
    rw [cellsWf_iff] at h
    obtain ⟨hp, hn⟩ := h
    rw [List.pairwise_cons] at hp
    have ht : cellsWf t = true := (cellsWf_iff t).2 ⟨hp.2, fun y hy => hn y (.tail _ hy)⟩
    simp only [cellsWrite]
    by_cases hka : k < a
    · rw [if_pos hka]
      have below : cellsRead ((a, c) :: t) k = Column.blank :=
        cellsRead_of_lt (by
          intro y hy
          rcases List.mem_cons.1 hy with rfl | hy
          · exact hka
          · exact Nat.lt_trans hka (hp.1 y hy))
      by_cases hv : v = Column.blank
      · rw [if_pos hv]
        by_cases hj : j = k
        · rw [if_pos hj, hj, below, hv]
        · rw [if_neg hj]
      · rw [if_neg hv, cellsRead]
        by_cases hj : j = k
        · rw [if_pos hj.symm, if_pos hj]
        · rw [if_neg (Ne.symm hj), if_neg hj]
    · rw [if_neg hka]
      by_cases hk : k = a
      · rw [if_pos hk]
        by_cases hv : v = Column.blank
        · rw [if_pos hv]
          by_cases hj : j = k
          · rw [if_pos hj, hv, hj]
            exact cellsRead_of_lt (fun y hy => hk ▸ hp.1 y hy)
          · rw [if_neg hj, cellsRead, if_neg (by omega)]
        · rw [if_neg hv, cellsRead]
          by_cases hj : j = k
          · rw [if_pos hj.symm, if_pos hj]
          · rw [if_neg (Ne.symm hj), if_neg hj, cellsRead, if_neg (by omega)]
      · rw [if_neg hk, cellsRead, ih ht, cellsRead]
        by_cases hj : j = k
        · rw [if_pos hj, if_neg (by omega), if_pos hj]
        · rw [if_neg hj, if_neg hj]

theorem cellsRead_cellsErase (l : List (Nat × Column)) (b k : Nat) :
    cellsRead (cellsErase l b) k = if k / Config.blockColumns = b then Column.blank else cellsRead l k := by
  induction l with
  | nil => simp [cellsErase]
  | cons x t ih =>
    obtain ⟨a, c⟩ := x
    simp only [cellsErase] at ih ⊢
    rw [List.filter_cons]
    by_cases ha : a / Config.blockColumns = b
    · simp only [ha, bne_self_eq_false, Bool.false_eq_true, if_false, ih, cellsRead]
      by_cases hk : a = k
      · simp [← hk, ha]
      · simp [hk]
    · rw [if_pos (by simpa using ha), cellsRead, ih, cellsRead]
      by_cases hk : a = k
      · simp [← hk, ha]
      · simp [hk]

/-! ## The canonical form is kept -/

theorem cellsWrite_mem {l : List (Nat × Column)} {k : Nat} {v : Column} {x : Nat × Column}
    (h : x ∈ cellsWrite l k v) : x ∈ l ∨ (x = (k, v) ∧ v ≠ Column.blank) := by
  induction l with
  | nil =>
    simp only [cellsWrite] at h
    split at h
    · cases h
    · exact .inr ⟨by simpa using h, ‹_›⟩
  | cons y t ih =>
    obtain ⟨a, c⟩ := y
    simp only [cellsWrite] at h
    split at h
    · split at h
      · exact .inl h
      · rcases List.mem_cons.1 h with h | h
        · exact .inr ⟨h, ‹_›⟩
        · exact .inl h
    · split at h
      · split at h
        · exact .inl (.tail _ h)
        · rcases List.mem_cons.1 h with h | h
          · exact .inr ⟨h, ‹_›⟩
          · exact .inl (.tail _ h)
      · rcases List.mem_cons.1 h with h | h
        · exact .inl (h ▸ .head _)
        · exact (ih h).imp_left (.tail _)

theorem cellsWrite_wf {l : List (Nat × Column)} (h : cellsWf l = true) (k : Nat) (v : Column) :
    cellsWf (cellsWrite l k v) = true := by
  rw [cellsWf_iff] at h ⊢
  refine ⟨?_, fun x hx => ?_⟩
  · obtain ⟨hp, -⟩ := h
    induction l with
    | nil => simp only [cellsWrite]; split <;> simp
    | cons y t ih =>
      obtain ⟨a, c⟩ := y
      have hp' := List.pairwise_cons.1 hp
      simp only [cellsWrite]
      split
      · split
        · exact hp
        · refine List.pairwise_cons.2 ⟨fun x hx => ?_, hp⟩
          rcases List.mem_cons.1 hx with rfl | hx
          · assumption
          · exact Nat.lt_trans ‹k < a› (hp'.1 x hx)
      · split
        · split
          · exact hp'.2
          · exact List.pairwise_cons.2 ⟨fun x hx => ‹k = a› ▸ hp'.1 x hx, hp'.2⟩
        · refine List.pairwise_cons.2 ⟨fun x hx => ?_, ih hp'.2⟩
          rcases cellsWrite_mem hx with hx | ⟨rfl, -⟩
          · exact hp'.1 x hx
          · show a < k
            omega
  · rcases cellsWrite_mem hx with hx | ⟨rfl, hv⟩
    · exact h.2 x hx
    · exact hv

theorem cellsErase_wf {l : List (Nat × Column)} (h : cellsWf l = true) (b : Nat) :
    cellsWf (cellsErase l b) = true := by
  rw [cellsWf_iff] at h ⊢
  exact ⟨h.1.filter _, fun x hx => h.2 x (List.mem_filter.1 hx).1⟩

theorem Pool.write_wf {p : Pool} (h : p.wf = true) (k : Nat) (c : Column) : (p.write k c).wf = true :=
  cellsWrite_wf h k c

theorem Pool.take_wf {p : Pool} (h : p.wf = true) (b : Nat) : (p.take b).wf = true := cellsErase_wf h b

theorem Pool.release_wf {p : Pool} (h : p.wf = true) (b : Nat) : (p.release b).wf = true := cellsErase_wf h b

theorem Pool.releaseAll_wf {p : Pool} (h : p.wf = true) (l : List (Option Nat)) : (p.releaseAll l).wf = true := by
  induction l generalizing p with
  | nil => exact h
  | cons x t ih =>
    cases x with
    | none => exact ih h
    | some b => exact ih (p.release_wf h b)

theorem allocate_wf {p : Pool} (h : p.wf = true) (l : List Nat) (slots : List (Option Nat)) :
    (allocate l p slots).1.wf = true := by
  induction l generalizing p slots with
  | nil => exact h
  | cons k t ih =>
    simp only [allocate]
    split
    · exact h
    · exact ih (p.take_wf h _) _

theorem mergeColumn_wf {p : Pool} (h : p.wf = true) (e : Pass) (c : Nat) (d : Rows) :
    (mergeColumn p e c d).wf = true := by
  simp only [mergeColumn]
  split
  · exact h
  · exact p.write_wf h _ _

theorem mergeColumns_wf {p : Pool} (h : p.wf = true) (l : List Rows) (c : Nat) (e : Pass) :
    (mergeColumns l c e p).wf = true := by
  induction l generalizing p c with
  | nil => exact h
  | cons d t ih => exact ih (mergeColumn_wf h e c d) _

theorem reset_pool_wf : State.reset.pool.wf = true := rfl

end Sys2Proof.Machine
end

