-- ==== Sys2Proof/Tests/Slice0.lean ====
section
/-! SUPPORT. Tests of the model against values written out in the spec, each about one command on a small state; the smoke
test of the well-formedness checks; and, for every obligation with hypotheses, a state and operands that meet them. -/

namespace Sys2Proof.Tests

set_option Elab.async false

open Sys2Proof Sys2Proof.Machine

/-! ## Helpers -/

/-- What a view of the next state gives; none when a step does not answer one. -/
def after {α : Type} (r : Result) (view : State → α) : Option α :=
  match r with
  | .next t => some (view t)
  | .fault _ => none
  | .refused _ => none

/-- The newest reply in the FIFO. -/
def lastReply (s : State) : List Byte := s.link.fifo.getLastD []

/-- A carriage at rest at a position. -/
def restAt (p : Nat) : Carriage := { Carriage.reset with state := .idle, pos := some p }

/-- A pass with block 0 in slot 0, masks that suppress nothing, and no sweep yet. -/
def passOf (d : Density) (start span : Nat) (pref : Preference) : Pass where
  density := d
  start := start
  span := span
  pref := pref
  slots := some 0 :: List.replicate 50 none
  suppressed := some 0#24
  dir := none
  resumeA := none
  resumeB := none
  dotsFired := 0
  dotsSuppressed := 0
  dotsLost := 0
  sweeps := 0
  deadline := none

/-- A print entry. -/
def printEntry (tag : Byte) (st : EntryState) (n : Int) (p : Pass) : Entry where
  tag := tag
  state := st
  advance := .distance n
  remaining := none
  pass := some p

/-- An advance entry. -/
def advanceEntry (tag : Byte) (st : EntryState) (n : Int) : Entry where
  tag := tag
  state := st
  advance := .distance n
  remaining := none
  pass := none

/-- A pool whose block 0 is taken and holds these rows in its first columns. -/
def poolOf (columns : List Rows) : Pool where
  free := ~~~1#128
  cells := (List.range columns.length).map (fun k =>
    (k, { dots := columns.getD k 0#24, fired := 0#24, lost := 0#24 : Column }))

/-- A motion just ordered. -/
def motionOf (p : Purpose) (d : Int) : Motion where
  purpose := p
  distance := d
  moved := 0
  path := .tractor
  stop := none

/-- The state after reset with the carriage homed at the park position. -/
def homed : State := State.reset.setCarriage (restAt 360)

/-- The profile of the stepping example: T = 120, S = 240, skip enabled (spec/05 section 5.4). -/
def skipProfile : Profile := { Profile.default with top := 120, skip := 240, skipOn := true }

/-- The profile of the park example: tear idle 20, tear offset 180 (spec/05 section 5.6). -/
def tearProfile : Profile := { Profile.default with tear := some { idle := 20, offset := 180 } }

/-- A state with a profile in the active slot. -/
def withProfile (p : Profile) (s : State) : State :=
  s.setForms { s.forms with slots := some p :: List.replicate 15 none }

/-- A state in the middle of a frame: these bytes are in the buffer. -/
def inFrame (a : Assembler) (bytes : List Byte) (n : Option Nat) : State :=
  (State.reset.setLink { State.reset.link with asm := a, buffer := bytes, frameLen := n }).setTime
    { State.reset.time with byteGap := some 6 }

/-- The head entry of the suspend example (spec/03 section 3.12): D240, columns 500..519, rows 0 and 1 in each. -/
def pauseEntry (st : EntryState) : Entry := printEntry 12#8 st 60 (passOf .d240 500 20 .fwd)

/-- The suspend example, at POSITION with the carriage parked. -/
def pauseStart : State :=
  (((homed.setQueue [pauseEntry .active]).setPool (poolOf (List.replicate 20 3#24))).setHeat
    (List.replicate 24 1000)).setRunner { Runner.reset with phase := .position }

/-- A plan of the suspend example with one column in each list: start 3798, end 4428, grade 1. -/
def pausePlan : Plan where
  tag := 12#8
  dir := .fwd
  grade := 1
  lead := 6
  runUp := 240
  start := 3798
  stop := 4428
  listA := [{ column := 500, pos := 4074 }]
  listB := [{ column := 500, pos := 4038 }]

/-- A carriage in a sweep of that plan, channel A at index a and channel B at index b. -/
def sweeping (p a b : Nat) : Carriage :=
  { Carriage.reset with
    state := .sweep, pos := some p, drive := .on, plan := some pausePlan
    chanA := { list := pausePlan.listA, next := a, armed := true }
    chanB := { list := pausePlan.listB, next := b, armed := true } }

/-- The suspend example in its sweep. -/
def pauseSweep (p a b : Nat) : State :=
  (pauseStart.setCarriage (sweeping p a b)).setRunner { Runner.reset with phase := .sweep }

/-- A burst of channel A in column 500: row 0 through output 0 in slot 0, slot 1 empty. -/
def burstA : Burst where
  chan := .a
  tag := 12#8
  column := 500
  groups := [[(0, 0)], []]
  order := 0
  orphan := false

/-- A burst of channel B in column 500: slot 0 empty, row 1 through output 1 in slot 1. -/
def burstB : Burst where
  chan := .b
  tag := 12#8
  column := 500
  groups := [[], [(1, 1)]]
  order := 1
  orphan := false

/-- A driver that runs burst A from a slot, with these bursts pending. -/
def driverOf (next : Nat) (a b : Option Burst) : Driver where
  pinMap := List.range 24
  running := some { burst := burstA, next := next }
  pendA := a
  pendB := b
  matchCount := 2

/-- The OPEN_PASS of the building example (spec/02 section 2.9): tag 7, D240, s = 3100, w = 200, REV, N = 30. -/
def openSeven : PassRequest where
  tag := 7#8
  density := 2#8
  start := 3100#16
  span := 200#16
  pref := 1#8
  distance := 30#16
  flags := 0#8

/-- The DEFINE_FORM of the form example (spec/06 section 6.9). -/
def defineThree : FormRequest where
  slot := 3#8
  path := 0#8
  length := 3960#16
  top := 60#16
  skip := 120#16
  skipOn := 1#8
  copies := 6#8
  cap := 2#8
  bidir := 1#8
  idle := 400#16
  offset := 180#16
  bandCount := 2#8
  bandData := [0x90#8, 0x01#8, 180#8, 0#8, 0x3C#8, 0x0F#8, 100#8, 0#8]

/-- The power-on configuration as a SET_MECH. -/
def mechDefault : MechRequest where
  origin := 1080#16
  lead0 := 3#8
  lead1 := 6#8
  lead2 := 9#8
  lead3 := 12#8
  phaseCount := 2#8
  groupMap := List.replicate 12 0#8 ++ List.replicate 12 1#8
  window := 100#8

/-! ## Well-formedness refuses -/

theorem test_wf_length_fault :
    (Instr.lengthFault 0#8).wf = true ∧ (Instr.lengthFault 1#8).wf = false ∧ (Instr.lengthFault 252#8).wf = false
      ∧ (Instr.lengthFault 253#8).wf = true := by decide +kernel

theorem test_wf_set_mech : (Instr.setMech mechDefault).wf = true
    ∧ (Instr.setMech { mechDefault with groupMap := List.replicate 23 0#8 }).wf = false := by decide +kernel

theorem test_wf_set_pin_map : (Instr.setPinMap (List.replicate 24 0#8)).wf = true
    ∧ (Instr.setPinMap (List.replicate 25 0#8)).wf = false := by decide +kernel

theorem test_wf_define_form : (Instr.defineForm { defineThree with bandData := List.replicate 234 0#8 }).wf = true
    ∧ (Instr.defineForm { defineThree with bandData := List.replicate 235 0#8 }).wf = false := by decide +kernel

theorem test_wf_image : (Instr.image 0#8 0#16 0#8 (List.replicate 247 0#8)).wf = true
    ∧ (Instr.image 0#8 0#16 0#8 (List.replicate 248 0#8)).wf = false := by decide +kernel

/-! ## The step and the words -/

theorem test_step_takes_the_front : after (step (State.reset.setPending [.pause, .resume]))
    (fun t => (t.runner.pause, t.pending)) = some (true, [.resume]) := by decide +kernel

/-- No row of the table has bits. -/
theorem test_no_words : decodeTableWord 0 0 = none ∧ decodeTableWord 32 231 = none := by decide +kernel

/-! ## Resets (spec/09 R178, R190 to R192; spec/05 R121, R122) -/

theorem test_power_on_without_paper : after
    (exec (.powerOnReset { strapB := true, strapA := false, homeCovered := true, paperSeen := false, coverOpen := false,
                           driveFault := false, encA := true, encB := false }) homed)
    (fun t => ((t.link.rate, t.paper.pe, t.paper.state), t.events.latched, t.carriage.pos, t.heat.getD 7 0))
      = some ((.r460800, some 0, .out), 0x040#12, none, 4096) := by decide +kernel

theorem test_reset_n_assert_keeps_form : after
    (exec .resetNAssert (homed.setPaper { homed.paper with y := 77, a := 2, pe := some 9 }))
    (fun t => (t.paper.y, t.paper.a, t.paper.pe, t.carriage.state, attnN t))
      = some (77, 2, some 9, .unhomed, true) := by decide +kernel

theorem test_reset_n_release_reads_sensor : after
    (exec (.resetNRelease false true) ((homed.setPins { homed.pins with resetLow := true, paperSeen := false }).setPaper
      { homed.paper with pe := some 9 }))
    (fun t => (t.link.rate, t.paper.pe, t.paper.state, t.events.latched)) = some (.r115200, some 9, .idle, 0#12) := by
  decide +kernel

/-- The reset example of spec/09 section 9.8: the RESET reply leaves and the straps stand at 115200. -/
theorem test_warm_reset : after
    (exec (.warmReset false true) ((homed.setLink
      { homed.link with resetPending := true, fifo := [frameOf 0x85#8 [0#8]], asm := .length }).setQueue
        [pauseEntry .ready]))
    (fun t => ((t.link.rate, t.link.resetPending, t.link.fifo), t.link.asm, t.queue, t.carriage.state))
      = some ((.r115200, false, []), .hunt, [], .unhomed) := by decide +kernel

theorem test_reply_sent : after
    (exec .replySent (homed.setLink { homed.link with fifo := [[1#8], [2#8]] })) (fun t => t.link.fifo)
      = some [[2#8]] := by decide +kernel

/-! ## Link Port (spec/09 section 9.8) -/

theorem test_crc_register : crcByte 0xFFFF#16 0x01#8 = 0xF1D1#16 ∧ crc [0x01#8, 0x02#8] = 0x0E7C#16 := by decide +kernel

/-- The rates' byte times of the table of R178, in nanoseconds. -/
theorem test_byte_times : [Rate.r38400, .r115200, .r460800, .r921600].map Rate.byteTime = [260416, 86805, 21701, 10850] := by
  decide +kernel

/-- The start byte E7h on the line: start bit, 1110 0111 from the least significant bit, stop bit (R178). -/
theorem test_line_char : lineChar 0xE7#8 = [false, true, true, true, false, false, true, true, true, true] := by
  decide +kernel

/-- The byte E7h, then a byte without its stop bit and a break, then the byte 01h (R178, R183). -/
theorem test_rxd : rxdCommands .waiting
    ([true] ++ lineChar 0xE7#8 ++ [true, true] ++ List.replicate 25 false ++ [true] ++ lineChar 0x01#8)
      = [.byteReceived 0xE7#8, .lineFault, .byteReceived 0x01#8] := by decide +kernel

/-- A reply in the FIFO, and nothing else. -/
def withReply (kind : Byte) (payload : List Byte) : State :=
  homed.setLink { homed.link with fifo := [frameOf kind payload] }

/-- TXD sends the bytes of a reply back to back and is high after them, and high at once when RESET_N goes low. -/
theorem test_txd : (List.range 22).map (txd (withReply 0x05#8 [0#8])) = lineChar 0xE7#8 ++ lineChar 0x02#8 ++ [false, true]
    ∧ txd (withReply 0x05#8 [0#8]) 60 = true
    ∧ after (exec .resetNAssert (withReply 0x05#8 [0#8])) (fun t => txd t 0) = some true := by decide +kernel

theorem test_status_frame : frameOf 0x02#8 [] = [0xE7#8, 0x01#8, 0x02#8, 0x7C#8, 0x0E#8] := by decide +kernel

theorem test_start_byte : after (exec (.byteReceived 0xE7#8) State.reset) (fun t => (t.link.asm, t.time.byteGap))
    = some (.length, some 6) := by decide +kernel

theorem test_length_byte : after (exec (.byteReceived 2#8) (inFrame .length [0xE7#8] none))
    (fun t => (t.link.asm, t.link.frameLen)) = some (.body, some 2) := by decide +kernel

theorem test_frame_complete : after
    (exec (.frameComplete 0x0E#8) (inFrame .check [0xE7#8, 0x01#8, 0x02#8, 0x7C#8] (some 1)))
    (fun t => ((lastReply t).take 4, (lastReply t).length, t.link.asm, t.time.byteGap))
      = some ([0xE7#8, 0x1E#8, 0x82#8, 0x00#8], 34, .hunt, none) := by decide +kernel

theorem test_frame_with_wrong_crc : after
    (exec (.frameComplete 0x0E#8) (inFrame .check [0xE7#8, 0x01#8, 0x02#8, 0x7D#8] (some 1)))
    (fun t => ((lastReply t).take 4, t.events.latched)) = some ([0xE7#8, 0x02#8, 0xFF#8, 0xE1#8], 0x400#12) := by
  decide +kernel

theorem test_length_fault : after (exec (.lengthFault 253#8) (inFrame .length [0xE7#8] none))
    (fun t => ((lastReply t).take 4, t.link.asm)) = some ([0xE7#8, 0x02#8, 0xFF#8, 0xE2#8], .hunt) := by decide +kernel

theorem test_line_fault : after (exec .lineFault (inFrame .body [0xE7#8, 0x02#8] (some 2)))
    (fun t => ((lastReply t).take 4, t.link.asm)) = some ([0xE7#8, 0x02#8, 0xFF#8, 0xE3#8], .hunt) := by decide +kernel

/-- The gap example: CLOSE_PASS is cut after its third byte. -/
theorem test_byte_gap : after
    (exec .byteGapTimerExpiry ((inFrame .body [0xE7#8, 0x02#8, 0x22#8] (some 2)).setTime
      { State.reset.time with byteGap := some 0 }))
    (fun t => ((lastReply t).take 4, t.events.latched)) = some ([0xE7#8, 0x02#8, 0xFF#8, 0xE4#8], 0x400#12) := by
  decide +kernel

/-- The overrun example: a PAUSE that finds two replies has no effect. -/
theorem test_overrun : after (exec .pause (homed.setLink { homed.link with fifo := [[], []] }))
    (fun t => (t.runner.pause, t.events.latched, t.link.fifo.length)) = some (false, 0x400#12, 2) := by decide +kernel

/-! ## Event Unit and configuration -/

theorem test_identify : after (exec .identify State.reset) lastReply
    = some (frameOf 0x81#8 [0x00#8, 0xC7#8, 0x24#8, 0x01#8, 8#8, 128#8, 16#8]) := by decide +kernel

/-- After power-on: nothing latched, UNHOMED, 128 blocks free, IDLE and QUEUE_ROOM and (4096) HEAD_HOT holding. -/
theorem test_get_status : (statusBytes State.reset).length = 28 ∧ conditionByte State.reset = 0x34#8
    ∧ (statusBytes State.reset).take 8 = [0#8, 0#8, 0#8, 0#8, 0#8, 0#8, 0#8, 128#8] := by decide +kernel

/-- The list example of spec/08 section 8.8: eight records, four taken, four left. -/
theorem test_read_events : after
    (exec .readEvents (homed.setEvents { homed.events with
      latched := 0x201#12
      records := (List.range 8).map (fun k => completionOf (advanceEntry (BitVec.ofNat 8 (32 + k)) .advancing 0) .done homed) }))
    (fun t => (t.events.latched, t.events.records.map Completion.tag, ((lastReply t).drop 3).take 7))
      = some (0#12, [36#8, 37#8, 38#8, 39#8], [0#8, 0x01#8, 0x02#8, 0x34#8, 4#8, 4#8, 32#8]) := by decide +kernel

theorem test_set_attn_mask : after (exec (.setAttnMask 0xFFFFFFFF#32) State.reset) (fun t => t.events.mask)
    = some 0x007F0FFF#32 := by decide +kernel

theorem test_reset_request : after (exec .reset State.reset) (fun t => (t.link.resetPending, lastReply t))
    = some (true, frameOf 0x85#8 [0#8]) := by decide +kernel

theorem test_set_mech_range : after (exec (.setMech { mechDefault with origin := 1501#16 }) State.reset) lastReply
    = some (frameOf 0x90#8 [0x11#8]) := by decide +kernel

theorem test_set_mech_taken : after (exec (.setMech { mechDefault with origin := 1500#16, window := 0#8 }) State.reset)
    (fun t => (t.mech.origin, t.mech.window, t.mech.groupMap.getD 12 9)) = some (1500, 0, 1) := by decide +kernel

theorem test_set_pin_map : after
    (exec (.setPinMap ([2#8, 1#8, 0#8] ++ (List.range 21).map (fun k => BitVec.ofNat 8 (k + 3)))) State.reset)
    (fun t => t.driver.pinMap.take 4) = some [2, 1, 0, 3] := by decide +kernel

theorem test_set_pin_map_twice : after (exec (.setPinMap (List.replicate 24 1#8)) State.reset) lastReply
    = some (frameOf 0x91#8 [0x17#8]) := by decide +kernel

/-! ## Form Table (spec/06 section 6.9) -/

theorem test_define_form : after (exec (.defineForm defineThree) homed)
    (fun t => (lastReply t, (t.forms.slots.getD 3 none).map (fun p => (p.bands.map Band.height, p.tear))))
      = some (frameOf 0x92#8 [0x01#8], some ([180, 60], some { idle := 300, offset := 180 })) := by decide +kernel

theorem test_define_form_tight : after
    (exec (.defineForm { defineThree with
      slot := 4#8, length := 300#16, top := 200#16, skip := 150#16, copies := 0#8, bandCount := 0#8, bandData := [] })
      homed)
    (fun t => (lastReply t, t.forms.slots.getD 4 none)) = some (frameOf 0x92#8 [0x11#8], none) := by decide +kernel

theorem test_read_form_empty : after (exec (.readForm 4#8) homed) lastReply = some (frameOf 0x93#8 [0x1A#8]) := by
  decide +kernel

theorem test_read_form_default : after (exec (.readForm 0#8) homed) (fun t => ((lastReply t).drop 3).take 5)
    = some [0#8, 0x03#8, 0#8, 0x78#8, 0x0F#8] := by decide +kernel

theorem test_select_form : after
    (exec (.selectForm 0#8) (homed.setPaper { homed.paper with y := 1234, a := 1, state := .tearParked, park := some 5 }))
    (fun t => (t.paper.y, t.paper.a, t.paper.state, t.paper.park)) = some (0, 1, .idle, none) := by decide +kernel

theorem test_set_tof : after (exec .setTof (homed.setPaper { homed.paper with y := 1234, pe := some 0, state := .out }))
    (fun t => (t.paper.y, t.paper.pe, t.paper.state)) = some (0, some 0, .out) := by decide +kernel

/-! ## Print Queue (spec/02 sections 2.9 and 2.10) -/

/-- The state of the building example as it begins: 5000 ms, paused, a profile without bidirectional printing. -/
def building : State :=
  ((withProfile { Profile.default with bidir := false } homed).setTime { homed.time with ms := 5000#32 }).setRunner
    { Runner.reset with pause := true }

theorem test_open_pass : after (exec (.openPass openSeven) building)
    (fun t => (lastReply t, t.queue.map (fun e => (e.tag, e.state, (e.pass.map Pass.span).getD 0)), t.time.window))
      = some (frameOf 0xA0#8 [0x01#8, 164#8, 0#8, 0#8], [(7#8, .opened, 164)], some 100) := by decide +kernel

theorem test_open_pass_limit : after (exec (.openPass { openSeven with start := 3264#16 }) building) lastReply
    = some (frameOf 0xA0#8 [0x11#8]) := by decide +kernel

/-- The open entry of the building example. -/
def openPass7 : Entry := printEntry 7#8 .opened 30 { passOf .d240 3100 164 .fwd with slots := List.replicate 51 none, suppressed := none }

/-- IMAGE o = 40, k = 64 takes two blocks: 64 columns merged and 126 free. -/
theorem test_image : after
    (exec (.image 7#8 40#16 64#8 (List.replicate 192 0x80#8)) (building.setQueue [openPass7]))
    (fun t => (lastReply t, t.queue.map (fun e => e.slots.take 3), (t.pool.read 40).dots, t.time.window))
      = some (frameOf 0xA1#8 [0x00#8, 64#8, 126#8], [[some 0, some 1, none]], 0x010101#24, some 100) := by decide +kernel

/-- IMAGE o = 130, k = 64 is clipped to 34 columns. -/
theorem test_image_clipped : after
    (exec (.image 7#8 130#16 64#8 (List.replicate 192 0#8)) (building.setQueue [openPass7])) (fun t => (lastReply t).take 6)
      = some [0xE7#8, 4#8, 0xA1#8, 0x01#8, 34#8, 127#8] := by decide +kernel

theorem test_close_pass : after (exec (.closePass 7#8) (building.setQueue [openPass7]))
    (fun t => (t.queue.map Entry.state, t.time.window, t.events.latched)) = some ([.ready], none, 0#12) := by decide +kernel

theorem test_queue_advance : after (exec (.queueAdvance 8#8 2000#16 0#8) building)
    (fun t => (lastReply t, t.queue)) = some (frameOf 0xA3#8 [0x01#8], [advanceEntry 8#8 .ready 1440]) := by decide +kernel

theorem test_cancel_entry : after
    (exec (.cancelEntry 7#8) ((building.setQueue [printEntry 7#8 .ready 30 (passOf .d240 3100 164 .fwd), advanceEntry 8#8 .ready 0]).setPool
      (poolOf [1#24])))
    (fun t => (t.queue.map Entry.tag, t.pool.freeCount, t.pool.cells)) = some ([8#8], 128, []) := by decide +kernel

/-! ## Queue Runner requests -/

theorem test_pause_suspends : after (exec .pause (pauseSweep 4100 0 1))
    (fun t => (t.carriage.state, t.carriage.brake, t.runner.pause, t.queue.map (fun e => e.pass.bind Pass.resumeA)))
      = some (.braking, some (.suspend .hold 1), true, [some (.column 500)]) := by decide +kernel

theorem test_resume : after (exec .resume building) (fun t => t.runner.pause) = some false := by decide +kernel

theorem test_abort_at_rest : after (exec .abort pauseStart)
    (fun t => (t.queue, t.pool.freeCount, t.events.latched, t.events.records.map Completion.outcome, t.runner.abortPending))
      = some ([], 128, 0x002#12, [.aborted], false) := by decide +kernel

theorem test_abort_moving : after (exec .abort (pauseSweep 4100 0 1))
    (fun t => (t.queue, t.carriage.state, t.events.latched, t.runner.abortPending)) = some ([], .braking, 0#12, true) := by
  decide +kernel

/-- A HOME_FAIL record. -/
def failed : FaultRecord := { code := .homeFail, tag := none, pos := none }

theorem test_clear_fault : after (exec .clearFault (State.reset.setRunner { Runner.reset with fault := some failed }))
    (fun t => (t.runner.fault, t.carriage.state, t.carriage.homing.map Homing.stage)) = some (none, .homing, some .seek) := by
  decide +kernel

/-- The homing example of spec/03 section 3.11: a covered sensor is cleared first. -/
theorem test_home_covered : after (exec .home (State.reset.setPins { State.reset.pins with homeCovered := true }))
    (fun t => (t.carriage.state, t.carriage.pos, t.carriage.homing.map Homing.stage, t.time.stall))
      = some (.homing, none, some .clearing, some 20) := by decide +kernel

theorem test_home_under_fault : after (exec .home (homed.setRunner { Runner.reset with fault := some failed })) lastReply
    = some (frameOf 0xB4#8 [0x1B#8]) := by decide +kernel

/-! ## Time Base and timers -/

theorem test_ms_tick_wraps : after
    (exec .msTick (homed.setTime { homed.time with ms := 0xFFFFFFFF#32, divider := 9, stall := some 1 }))
    (fun t => (t.time.ms, t.time.divider, t.time.coolingOwed, t.time.stall)) = some (0#32, 0, 1, some 0) := by decide +kernel

/-- The heavy line of spec/04 section 4.7: 5240 − 164 = 5076 and 5316 − 167 = 5149. -/
theorem test_cooling_tick : after
    (exec .coolingTick ((homed.setTime { homed.time with coolingOwed := 1 }).setHeat [5240, 5316, 32, 1, 0])) State.heat
      = some [5076, 5149, 31, 0, 0] := by decide +kernel

theorem test_window_expiry : after
    (exec .windowTimerExpiry ((building.setQueue [openPass7]).setTime { building.time with window := some 0 }))
    (fun t => (t.queue.map Entry.state, t.events.latched, t.time.window)) = some ([.ready], 0x004#12, none) := by decide +kernel

/-- The park example of spec/05 section 5.6: d_t = 2660 + 180 = 2840. -/
theorem test_tear_expiry : after
    (exec .tearIdleTimerExpiry (((withProfile tearProfile homed).setPaper { homed.paper with y := 1300, a := 1 }).setTime
      { homed.time with tearIdle := some 0 }))
    (fun t => (t.paper.state, t.paper.motion.map Motion.distance)) = some (.advancing, some 2840) := by decide +kernel

/-- The jam of spec/10 section 10.5: the sweep halts, the position is lost, and the record carries it. -/
theorem test_stall : after
    (exec .stallTimerExpiry ((pauseSweep 4100 0 1).setTime { homed.time with stall := some 0 }))
    (fun t => (t.carriage.state, t.carriage.pos, t.queue.map Entry.state, t.runner.fault, t.events.latched))
      = some (.unhomed, none, [.halted], some { code := .stall, tag := some 12#8, pos := some 4100 }, 0x020#12) := by
  decide +kernel

/-! ## Carriage -/

/-- The four edges of a line in rightward motion with ENC_A leading, and the same read back (spec/03 R44). -/
theorem test_quad_dir :
    [quadDir true .encA false false, quadDir true .encB true false, quadDir true .encA true true,
      quadDir true .encB false true] = List.replicate 4 .fwd
    ∧ [quadDir true .encB false false, quadDir true .encA false true, quadDir true .encB true true,
      quadDir true .encA true false] = List.replicate 4 .rev := by decide

/-- The edge to 4038 ends the run-up, arms both channels and matches B500 (spec/03 section 3.12). -/
theorem test_run_up_ends : after
    (.next (countEdge .fwd (pauseStart.setCarriage
      { sweeping 4037 0 0 with
        state := .runup
        chanA := { list := pausePlan.listA, next := 0, armed := false }
        chanB := { list := pausePlan.listB, next := 0, armed := false } })))
    (fun t => ((t.carriage.state, t.carriage.chanA.next, t.carriage.chanB.next),
      t.driver.running.map (fun r => r.burst.groups.flatten), t.queue.map (fun e => e.pass.map Pass.sweeps)))
      = some ((.sweep, 0, 1), some [(1, 1)], [some 1]) := by decide +kernel

/-- An edge against the sweep direction matches nothing; it turns the level of its channel. -/
theorem test_edge_against : ∀ q, edgeDir q (pauseSweep 4075 0 1) = .rev → after (exec (.encoderEdge q) (pauseSweep 4075 0 1))
    (fun t => (t.carriage.pos, t.carriage.chanA.next, t.driver.running, t.pins.encA, t.pins.encB))
      = some (some 4074, 0, none, q == .encA, q == .encB) := by
  intro q h
  rw [exec, execEncoderEdge, encoderEdge, h]
  cases q <;> decide +kernel

/-- The covering edge of the seek sets P to 120. -/
theorem test_home_sensor : after
    (exec (.homeSensorChange true) (State.reset.setCarriage
      { Carriage.reset with
        state := .homing, drive := .on, homing := some { source := .host, stage := .seek, travel := 260 } }))
    (fun t => (t.carriage.pos, t.carriage.homing.map Homing.stage)) = some (some 120, some .seekStop) := by decide +kernel

/-- A carriage braking after a sweep, the drive on or released. -/
def brakingAfter (c : BrakeCause) (d : Drive) : Carriage :=
  { Carriage.reset with state := .braking, pos := some 4428, drive := d, brake := some c }

theorem test_brake_ramp_end : after
    (exec .brakeRampEnd (pauseStart.setCarriage (brakingAfter (.sweepEnd 1) .on)))
    (fun t => (t.carriage.state, t.carriage.drive)) = some (.braking, .released) := by decide +kernel

theorem test_rest_after_sweep : after
    (exec .restDetected (((pauseStart.setCarriage (brakingAfter (.sweepEnd 1) .released)).setTime
      { homed.time with stall := some 0 }).setRunner { Runner.reset with phase := .sweep }))
    (fun t => (t.carriage.state, t.carriage.drive, t.runner.phase)) = some (.idle, .off, .advance) := by decide +kernel

/-- Rest at 360 completes the homing; rest at 361 repeats the park move (spec/03 section 3.11). -/
theorem test_rest_at_park : ∀ p ∈ [360, 361], after
    (exec .restDetected ((State.reset.setCarriage
      { Carriage.reset with
        state := .homing, pos := some p, drive := .released
        homing := some { source := .host, stage := .park, travel := 0 } }).setTime { homed.time with stall := some 0 }))
    (fun t => (t.carriage.state, t.events.latched))
      = some (if p = 360 then (.idle, 0x800#12) else (.homing, 0#12)) := by decide +kernel

/-! ## Head Driver (spec/04 sections 4.2, 4.3, 4.7) -/

/-- The remapped head: F = 3, rows 0 and 2 swapped, row 8 already fired. -/
theorem test_burst_through_pin_map :
    groupPairs { Mech.powerOn with phaseCount := 3, groupMap := (List.range 24).map (fun p => p % 3) }
        (pairsOf ([2, 1, 0] ++ (List.range 21).map (fun k => k + 3)) 0x000055#24)
      = [[(2, 0), (6, 6)], [(4, 4)], [(0, 2)]] := by decide +kernel

/-- Six copies: a pulse of 90 µs and E = 10; the firing from 6141 leaves 6151 and suspends (spec/10 section 10.3). -/
theorem test_burst_slot_thermal : after
    (exec .burstSlot (((withProfile { Profile.default with copies := 6 } (pauseSweep 4080 0 1)).setDriver
      (driverOf 0 none none)).setHeat (6141 :: List.replicate 23 0)))
    (fun t => (t.outputs.pinOut, t.outputs.pulse, t.heat.getD 0 0, t.carriage.brake, (t.pool.read 0).fired))
      = some (1#24, 90, 6151, some (.suspend .thermal 1), 1#24) := by decide +kernel

/-- The last burst of a sweep: the resume columns are done and the carriage brakes. -/
theorem test_burst_end_ends_sweep : after (exec .burstEnd ((pauseSweep 4080 1 1).setDriver (driverOf 2 none none)))
    (fun t => (t.carriage.brake, t.driver.running, t.queue.map (fun e => e.pass.bind Pass.resumeA)))
      = some (some (.sweepEnd 1), none, [some .done]) := by decide +kernel

theorem test_drive_fault : after (exec (.driveFault true) ((pauseSweep 4080 0 1).setDriver (driverOf 0 none none)))
    (fun t => (t.queue.map Entry.state, t.events.latched, t.runner.fault, (t.pool.read 0).lost))
      = some ([.halted], 0x030#12, some { code := .headDrive, tag := some 12#8, pos := some 4080 }, 1#24) := by
  decide +kernel

theorem test_cover_opens_in_sweep : after (exec .coverOpen (pauseSweep 4100 0 1))
    (fun t => (t.pins.coverOpen, t.carriage.brake)) = some (true, some (.suspend .hold 1)) := by decide +kernel

theorem test_cover_closes : after (exec .coverClose (homed.setPins { homed.pins with coverOpen := true }))
    (fun t => t.pins.coverOpen) = some false := by decide +kernel

/-! ## Paper Drive (spec/05) -/

theorem test_paper_gone : after (exec .paperSnsNoPaper homed) (fun t => (t.paper.pe, t.events.latched))
    = some (some 540, 0x040#12) := by decide +kernel

theorem test_paper_back : after
    (exec .paperSnsPaper ((homed.setPaper { homed.paper with pe := some 0, state := .out }).setPins
      { homed.pins with paperSeen := false }))
    (fun t => (t.paper.pe, t.paper.state)) = some (none, .idle) := by decide +kernel

/-- A unit back from Y = 0 and a = 0: Y = L − 1, a tractor step back, a = 1. -/
theorem test_feed_unit_back : after
    (exec .feedUnit (homed.setPaper { homed.paper with state := .retracting, motion := some (motionOf .retract (-100)) }))
    (fun t => (t.paper.y, t.paper.a, t.outputs.platen, t.outputs.tractor)) = some (3959, 1, -1, -1) := by decide +kernel

/-- Unit 100 of 300 brings PE to 0: OUT, and a remaining advance of 200. -/
theorem test_paper_end_stop : after
    (exec .feedUnit ((homed.setPaper
      { homed.paper with
        y := 2539, a := 0, pe := some 1, state := .advancing
        motion := some { motionOf (.entryAdvance 31#8) 300 with moved := 99 } }).setQueue
      [printEntry 31#8 .advancing 300 (passOf .d60 0 1 .fwd)]))
    (fun t => ((t.paper.y, t.paper.a, t.paper.state), t.queue.map Entry.remaining, t.runner.pause, t.events.latched))
      = some ((2540, 2, .out), [some 200], true, 0x080#12) := by decide +kernel

/-- The head advance completes: the entry retires with its record. -/
theorem test_motion_complete : after
    (exec .paperMotionComplete (((homed.setPaper
      { homed.paper with
        y := 1060, state := .advancing, motion := some { motionOf (.entryAdvance 20#8) 60 with moved := 60 } }).setQueue
      [advanceEntry 20#8 .advancing 60]).setRunner { Runner.reset with phase := .advance }))
    (fun t => ((t.queue, t.events.latched), t.events.records.map Completion.y, t.runner.phase))
      = some (([], 0x001#12), [1060], .noPhase) := by decide +kernel

/-! ## Queue Runner (spec/07, spec/05 section 5.4) -/

theorem test_take_up_retracts : after
    (exec .takeUp ((homed.setPaper { homed.paper with y := 180, a := 2, state := .tearParked, park := some 2840 }).setQueue
      [pauseEntry .ready]))
    (fun t => (t.queue.map Entry.state, t.runner.phase, t.paper.state, t.paper.motion.map Motion.distance))
      = some ([.active], .retract, .retracting, some (-2840)) := by decide +kernel

/-- The skip from Y = 3700 to T = 120 is of 380 units; a PAUSE taken after the take-up leaves it to be given, one taken before
its due order was given does not (spec/07 R139). -/
theorem test_prep_skips : ∀ x ∈ [(false, false, some 380), (true, true, some 380), (true, false, none)], after
    (exec .prep (((withProfile skipProfile pauseStart).setPaper { homed.paper with y := 3700 }).setRunner
      { Runner.reset with phase := .prep, pause := x.1, firstOrderDue := x.2.1 }))
    (fun t => t.paper.motion.map Motion.distance) = some x.2.2 := by decide +kernel

/-- At Y = 120 the second check finds no skip. -/
theorem test_prep_ends : after
    (exec .prep (((withProfile skipProfile pauseStart).setPaper { homed.paper with y := 120 }).setRunner
      { Runner.reset with phase := .prep }))
    (fun t => (t.paper.motion, t.runner.point)) = some (none, .mask) := by decide +kernel

/-- A band over form rows 0 and 1 suppresses row 0 of the pass, and PE = 46 row 23. -/
theorem test_masking : after
    (exec .masking ((((withProfile { Profile.default with bands := [{ top := 0, height := 2 }] } pauseStart).setPaper
      { homed.paper with pe := some 46 }).setQueue
        [printEntry 12#8 .active 60 { passOf .d240 500 20 .fwd with suppressed := none }]).setRunner
      { Runner.reset with phase := .prep, point := .mask }))
    (fun t => (t.queue.map (fun e => e.pass.map (fun p => (p.suppressed, p.dotsSuppressed))), t.runner.point))
      = some ([some (some 0x800001#24, 20)], .heat) := by decide +kernel

theorem test_heat_check : ∀ h ∈ [5119, 5120], after
    (exec .heatCheck ((pauseStart.setRunner { Runner.reset with phase := .prep, point := .heat }).setHeat [h]))
    (fun t => t.runner.phase) = some (if h = 5119 then .position else .coolWait) := by decide +kernel

/-- The plan of spec/03 section 3.12: FWD, grade 1, start 3798, end 4428. -/
theorem test_position_plans : after (exec .position pauseStart)
    (fun t => (t.runner.headPlan.map (fun p => (p.dir, p.grade, p.start, p.stop)), t.carriage.state, t.carriage.target))
      = some (some (.fwd, 1, 3798, 4428), .approach, some 3798) := by decide +kernel

theorem test_sweep_order : after
    (exec .sweepOrder ((pauseStart.setCarriage (restAt 3798)).setRunner
      { Runner.reset with phase := .position, headPlan := some pausePlan }))
    (fun t => (t.carriage.state, t.runner.phase, t.carriage.chanB.list.map Elem.pos)) = some (.runup, .sweep, [4038]) := by
  decide +kernel

theorem test_resume_suspended : ∀ h ∈ [3071, 3072], after
    (exec .resumeSuspended (((pauseStart.setQueue [pauseEntry .suspended]).setHeat [h]).setRunner
      { Runner.reset with phase := .sweep, suspend := some .thermal }))
    (fun t => t.queue.map Entry.state) = some (if h = 3071 then [.active] else [.suspended]) := by decide +kernel

theorem test_advance_order : after
    (exec .advanceOrder ((pauseStart.setPool (poolOf [])).setRunner { Runner.reset with phase := .advance }))
    (fun t => (t.queue.map Entry.state, t.paper.motion.map Motion.distance)) = some ([.advancing], some 60) := by
  decide +kernel

/-- A form feed from the top margin moves a whole form (spec/05 R100). -/
theorem test_advance_entry_form_feed : after
    (exec .advanceEntryOrder ((homed.setQueue [{ advanceEntry 8#8 .advancing 0 with advance := .formFeed }]).setRunner
      { Runner.reset with phase := .advance }))
    (fun t => t.paper.motion.map Motion.distance) = some (some 3960) := by decide +kernel

/-- A PAUSE taken after the take-up leaves an advance entry's first order to be given; one taken after that order does not
(spec/07 R139). -/
theorem test_advance_entry_first_order : ∀ due ∈ [true, false], after
    (exec .advanceEntryOrder ((homed.setQueue [advanceEntry 8#8 .advancing 5]).setRunner
      { Runner.reset with phase := .advance, pause := true, firstOrderDue := due }))
    (fun t => (t.paper.motion.map Motion.distance, t.runner.firstOrderDue))
      = some (if due then some 5 else none, false) := by decide +kernel

/-- The look-ahead example of spec/07 section 7.8, as entry 20's advance of 60 units begins. -/
def lookingAhead : State :=
  (((((homed.setCarriage (restAt 5000)).setQueue
    [printEntry 20#8 .advancing 60 { passOf .d120 0 1 .fwd with slots := [] },
      printEntry 21#8 .ready 60 { passOf .d120 100 40 .any with suppressed := none }]).setPool
    (poolOf ([3#24] ++ List.replicate 38 0#24 ++ [1#24]))).setHeat (List.replicate 24 2500)).setPaper
    { homed.paper with y := 1000, state := .advancing, motion := some (motionOf (.entryAdvance 20#8) 60) }).setRunner
    { Runner.reset with phase := .advance }

/-- REV, grade 2, start 3237, end 1773; the approach goes to the start; list A (139, 2757), (100, 2289), list B (100, 2253). -/
theorem test_look_ahead : after (exec .lookAheadPlan lookingAhead)
    (fun t => (t.runner.lookAhead.map (fun p =>
        (p.dir, [[(p.grade : Int), p.start, p.stop], p.listA.map Elem.pos, p.listB.map Elem.pos])),
      t.carriage.target, t.queue.map Entry.state))
      = some (some (.rev, [[2, 3237, 1773], [2757, 2289], [2253]]), some 3237, [.advancing, .ready]) := by decide +kernel

/-- After CLEAR_FAULT the advance that the fault stopped is still ramping down: no plan is made and no approach given
(spec/07 R157). -/
theorem test_look_ahead_waits_for_stop : after (exec .lookAheadPlan (lookingAhead.setPaper { lookingAhead.paper with
      motion := some { motionOf (.entryAdvance 20#8) 60 with moved := 10, stop := some { cause := .fault, ramp := 40 } } }))
    (fun t => (t.runner.lookAhead.isNone, t.carriage.target, t.queue.map Entry.state))
      = some (true, none, [.advancing, .ready]) := by decide +kernel

/-- A planned entry cannot be cancelled. -/
theorem test_cancel_planned : after
    (exec (.cancelEntry 21#8) (lookingAhead.setRunner { Runner.reset with lookAhead := some { pausePlan with tag := 21#8 } }))
    lastReply = some (frameOf 0xA4#8 [0x16#8]) := by decide +kernel

theorem test_entry_aborted : after (exec .entryAborted (homed.setRunner { Runner.reset with abortPending := true }))
    (fun t => (t.runner.abortPending, t.events.latched)) = some (false, 0x002#12) := by decide +kernel

/-! ## Witnesses: the hypotheses of each obligation are met

One theorem per obligation that has hypotheses, named after it; each clause of the obligation has its states, at the ends of
its ranges where it has ranges. -/

/-- The plan a planning made. -/
def madePlan : Planned → Option Plan
  | .made p => some p
  | .noColumn => none
  | .tooHot => none

/-- A queue of READY advance entries with tags 0, 1, … -/
def queueOf (n : Nat) : List Entry := (List.range n).map (fun k => advanceEntry (BitVec.ofNat 8 k) .ready 0)

/-- Two replies wait in the FIFO. -/
def fullFifo (s : State) : State := s.setLink { s.link with fifo := [[], []] }

/-- A RESET has been answered and its reply is the only one in the FIFO. -/
def resetAsked (s : State) : State := s.setLink { s.link with resetPending := true, fifo := [[]] }

/-- RESET_N is low. -/
def heldLow (s : State) : State := s.setPins { s.pins with resetLow := true }

/-- A state with these values of the runner. -/
def running (r : Runner) (s : State) : State := s.setRunner r

/-- A carriage on an approach. -/
def approaching : Carriage := { restAt 400 with state := .approach, drive := .on, target := some 360 }

/-- A carriage in a stage of homing. -/
def homingAt (src : HomingSource) (stage : HomingStage) (travel : Int) (pos : Option Nat) (d : Drive) : Carriage :=
  { Carriage.reset with
    state := .homing, pos := pos, drive := d, homing := some { source := src, stage := stage, travel := travel } }

/-- A state with a paper motion in flight. -/
def moving (m : Motion) (s : State) : State :=
  s.setPaper { s.paper with state := if 0 < m.distance then .advancing else .retracting, motion := some m }

/-- A motion that has moved some units and is being stopped. -/
def stopped (m : Motion) (k : Nat) (c : StopCause) : Motion :=
  { m with moved := k, stop := some { cause := c, ramp := min 40 (m.distance.natAbs - k) } }

/-- The stall timer is due. -/
def due (s : State) : State := s.setTime { s.time with stall := some 0 }

/-- A state with k completion records in the list. -/
def recorded (k : Nat) (s : State) : State :=
  s.setEvents { s.events with records := List.replicate k (completionOf (advanceEntry 8#8 .advancing 0) .done homed) }

/-- CLEAR_FAULT owes a homing. -/
def owing (s : State) : State := s.setRunner { s.runner with homingOwed := true }

theorem witness_StepRunsFrontCommand : (homed.setPending [.home, .abort]).pending = [.home, .abort] ∧ homed.pending = [] :=
  ⟨rfl, rfl⟩

theorem witness_ResetPinWarmReset :
    homed.pins.resetLow = false ∧ (heldLow homed).pins.resetLow = true ∧ (heldLow homed).time.tearIdle = none :=
  ⟨rfl, rfl, rfl⟩

theorem witness_ResetRequestWarmReset :
    linkOpen homed = true ∧ homed.link.resetPending = false ∧ (fullFifo homed).link.fifo.length ≠ 1
      ∧ (resetAsked homed).link.resetPending = true ∧ (resetAsked homed).link.fifo.length = 1
      ∧ (heldLow homed).pins.resetLow = true ∧ homed.link.fifo = []
      ∧ ((withReply 0x05#8 [0#8]).pins.resetLow = false ∧ (withReply 0x05#8 [0#8]).link.fifo = [frameOf 0x05#8 [0#8]]
        ∧ (frameOf 0x05#8 [0#8])[0]? = some 0xE7#8) := by decide +kernel

theorem witness_ByteReceivedByAssemblerState :
    (heldLow homed).pins.resetLow = true ∧ State.reset.link.asm = .hunt
      ∧ (inFrame .length [0xE7#8] none).pins.resetLow = false ∧ (inFrame .length [0xE7#8] none).link.asm = .length
      ∧ (1 ≤ (1#8).toNat ∧ (252#8).toNat ≤ 252) ∧ ((0#8).toNat = 0 ∧ 253 ≤ (253#8).toNat)
      ∧ (inFrame .body [0xE7#8, 252#8] (some 252)).link.buffer.length + 1 < 252 + 2
      ∧ (inFrame .body [0xE7#8, 1#8] (some 1)).link.buffer.length + 1 = 1 + 2
      ∧ (inFrame .check [0xE7#8, 1#8, 2#8] (some 1)).link.buffer.length = 1 + 2
      ∧ (inFrame .check [0xE7#8, 1#8, 2#8, 0x7C#8] (some 1)).link.buffer.length = 1 + 3 := by decide +kernel

theorem witness_RejectedFrames :
    ((inFrame .length [0xE7#8] none).pins.resetLow = false ∧ (inFrame .length [0xE7#8] none).link.asm = .length)
      ∧ (inFrame .body [0xE7#8, 2#8] (some 2)).link.asm ≠ .hunt
      ∧ ((inFrame .check [] (some 1)).setTime { homed.time with byteGap := some 0 }).time.byteGap = some 0
      ∧ crc (([0xE7#8, 1#8, 2#8, 0x7D#8].drop 1).take 2) ≠ half 0x7D#8 0x0E#8
      ∧ (inFrame .check [0xE7#8, 1#8, 2#8, 0x7D#8] (some 1)).link.buffer.length = 1 + 3
      ∧ (resetAsked (inFrame .length [0xE7#8] none)).link.resetPending = true
      ∧ 2 ≤ (fullFifo (inFrame .length [0xE7#8] none)).link.fifo.length
      ∧ (inFrame .length [0xE7#8] none).link.fifo.length < 2 := by decide +kernel

theorem witness_ValidFrameIsTaken :
    (inFrame .check [0xE7#8, 1#8, 2#8, 0x7C#8] (some 1)).pins.resetLow = false
      ∧ (inFrame .check [0xE7#8, 1#8, 2#8, 0x7C#8] (some 1)).link.asm = .check
      ∧ (inFrame .check [0xE7#8, 1#8, 2#8, 0x7C#8] (some 1)).link.buffer.length = 1 + 3
      ∧ crc (([0xE7#8, 1#8, 2#8, 0x7C#8].drop 1).take 2) = half 0x7C#8 0x0E#8 ∧ homed.link.asm = .hunt
      ∧ (∀ x ∈ [(1#8, [0x7F#8]), (2#8, [0x02#8, 0#8])],
        let check := crc (x.1 :: x.2)
        let s := inFrame .check (0xE7#8 :: x.1 :: x.2 ++ [check.setWidth 8]) (some x.1.toNat)
        linkOpen s = true ∧ s.link.buffer.length = x.1.toNat + 3
          ∧ crc ((s.link.buffer.drop 1).take (x.1.toNat + 1))
            = half (s.link.buffer.getD (x.1.toNat + 2) 0#8) ((check >>> 8).setWidth 8)) := by
  decide +kernel

theorem witness_RequestsNotDispatched :
    requestKind .home = some 0x34#8 ∧ (heldLow homed).pins.resetLow = true
      ∧ ((resetAsked homed).pins.resetLow = false ∧ (resetAsked homed).link.resetPending = true)
      ∧ ((fullFifo homed).pins.resetLow = false ∧ (fullFifo homed).link.resetPending = false
        ∧ 2 ≤ (fullFifo homed).link.fifo.length) := by decide +kernel

/-- One request that is carried out and one that is refused with FAULT (1Bh). -/
theorem witness_RequestsAnsweredOnce :
    requestKind .home = some 0x34#8 ∧ linkOpen homed = true
      ∧ linkOpen (homed.setRunner { Runner.reset with fault := some failed }) = true ∧ 16 ≤ (0x1B#8).toNat := by
  decide +kernel

theorem witness_FrameBytesAreTheRequest :
    (Instr.image 1#8 0#16 64#8 (List.replicate 247 0#8)).wf = true
      ∧ requestKind (.image 1#8 0#16 64#8 (List.replicate 247 0#8)) = some 0x21#8 ∧ homed.link.asm = .hunt
      ∧ homed.link.buffer = [] ∧ homed.link.frameLen = none ∧ homed.time.byteGap = none := by decide +kernel

theorem witness_EventUnitReads :
    linkOpen State.reset = true ∧ linkOpen (recorded 4 homed) = true ∧ 4 ≤ (recorded 4 homed).events.records.length := by
  decide +kernel

theorem witness_SetAttnMaskReplacesMask : linkOpen homed = true := by decide

theorem witness_AttnLineFollowsEventsAndConditions :
    (heldLow homed).pins.resetLow = true ∧ State.reset.pins.resetLow = false := ⟨rfl, rfl⟩

theorem witness_ConfigurationRequests :
    linkOpen pauseStart = true ∧ mechDefault.groupMap.length = 24
      ∧ ((List.range 24).map (fun k => BitVec.ofNat 8 (23 - k))).length = 24
      ∧ (∃ e ∈ pauseStart.queue, e.state ≠ .opened ∧ e.state ≠ .ready)
      ∧ (linkOpen homed = true ∧ homed.queue = [] ∧ homed.runner.lookAhead = none ∧ homed.carriage.state = .idle)
      ∧ mechInRange { mechDefault with origin := 360#16, lead0 := 120#8, window := 250#8 } = true
      ∧ mechInRange { mechDefault with window := 251#8 } = false
      ∧ isPinMap ((List.range 24).map (fun k => 23 - k)) = true ∧ isPinMap (List.replicate 24 0) = false := by
  decide +kernel

theorem witness_DefineFormJudgedAndHeld :
    linkOpen homed = true ∧ linkOpen (homed.setQueue (queueOf 1)) = true
      ∧ defineThree.bandData.length ≠ 4 * (3#8).toNat ∧ defineThree.bandData.length = 4 * defineThree.bandCount.toNat
      ∧ ¬(16#8).toNat ≤ 15 ∧ (15#8).toNat ≤ 15
      ∧ ((0#8).toNat = (homed.setQueue (queueOf 1)).forms.active ∧ (homed.setQueue (queueOf 1)).queue ≠ [])
      ∧ ¬(2#8).toNat ≤ 1 ∧ ¬(5#8).toNat ≤ 4
      ∧ (min 8640 (max 360 300) : Int) - (min 720 150 : Int) - (min (min 720 200) (min 8640 (max 360 300) - 1) : Nat) < 48
      ∧ (defineThree.path.toNat ≤ 1 ∧ defineThree.skipOn.toNat ≤ 1 ∧ defineThree.bidir.toNat ≤ 1
        ∧ defineThree.bandCount.toNat ≤ 4)
      ∧ skipTooTight (heldProfile .tractor true true
          { defineThree with length := 360#16, top := 200#16, skip := 112#16 }) = false
      ∧ ((0#8).toNat = homed.forms.active ∧ homed.queue = []) := by decide +kernel

/-- The form example with the values it is held with. -/
def heldThree : FormRequest :=
  { defineThree with
    idle := 300#16, bandData := [0x90#8, 0x01#8, 180#8, 0#8, 0x3C#8, 0x0F#8, 60#8, 0#8] }

theorem witness_ReadFormReturnsDefinition :
    linkOpen homed = true ∧ 15 < (16#8).toNat ∧ homed.forms.slots.getD (15#8).toNat none = none
      ∧ homed.forms.slots.getD (0#8).toNat none = some Profile.default
      ∧ heldThree.path = 0#8 ∧ heldThree.skipOn = boolByte true ∧ heldThree.bidir = boolByte true
      ∧ heldThree.copies.toNat < 16 ∧ heldThree.bandData.length = 4 * heldThree.bandCount.toNat
      ∧ (Profile.default.tear = some { idle := 0, offset := 0 }
        ∧ ({ Profile.default with path := .friction, tear := none } : Profile).tear = none)
      ∧ heldProfile .tractor true true heldThree = sentProfile .tractor true true heldThree := by decide +kernel

theorem witness_SelectFormSwitches :
    linkOpen homed = true ∧ 15 < (16#8).toNat
      ∧ (linkOpen (homed.setQueue (queueOf 1)) = true ∧ (homed.setQueue (queueOf 1)).queue ≠ [])
      ∧ (homed.queue = [] ∧ homed.paper.state = .idle ∧ homed.carriage.state = .idle)
      ∧ homed.forms.slots.getD (15#8).toNat none = none ∧ homed.forms.slots.getD (0#8).toNat none = some Profile.default := by
  decide +kernel

theorem witness_SetTofDeclaresTop :
    (linkOpen (homed.setCarriage approaching) = true ∧ (homed.setCarriage approaching).carriage.state = .approach)
      ∧ (linkOpen homed = true ∧ motionBusy homed = false) := by decide +kernel

theorem witness_HomeStartsHoming :
    linkOpen homed = true ∧ (homed.setRunner { Runner.reset with fault := some failed }).runner.fault ≠ none
      ∧ (linkOpen pauseStart = true ∧ pauseStart.runner.fault = none
        ∧ ∃ e ∈ pauseStart.queue, e.state ≠ .opened ∧ e.state ≠ .ready)
      ∧ (homed.runner.fault = none ∧ motionBusy homed = false) := by decide +kernel

theorem witness_OpenPassAppends :
    linkOpen homed = true ∧ densityOf 3#8 = none ∧ preferenceOf 3#8 = none
      ∧ (densityOf openSeven.density = some .d240 ∧ Density.limit .d240 ≤ (3264#16).toNat)
      ∧ (preferenceOf openSeven.pref = some .rev ∧ (3263#16).toNat < Density.limit .d240 ∧ 1 ≤ (1#16).toNat)
      ∧ (∃ e ∈ queueOf 8, e.tag = openSeven.tag) ∧ (∀ e ∈ queueOf 7, e.tag ≠ openSeven.tag)
      ∧ (∀ e ∈ queueOf 8, e.tag ≠ 9#8) ∧ 8 ≤ (queueOf 8).length ∧ (queueOf 7).length < 8 := by decide +kernel

/-- The building example with its OPEN entry, the runner not paused. -/
def withOpen (p : Pool) : State := (homed.setQueue [openPass7]).setPool p

theorem witness_ImageJudgedAndMerged :
    linkOpen (withOpen Pool.reset) = true ∧ (List.replicate 191 0#8).length ≠ 3 * (64#8).toNat
      ∧ (List.replicate 192 0#8).length = 3 * (64#8).toNat ∧ findEntry (withOpen Pool.reset).queue 9#8 = none
      ∧ (findEntry [pauseEntry .ready] 12#8 = some (pauseEntry .ready) ∧ (pauseEntry .ready).state ≠ .opened)
      ∧ (findEntry (withOpen Pool.reset).queue 7#8 = some openPass7 ∧ openPass7.state = .opened)
      ∧ (openPass7.pass.map Pass.span = some 164 ∧ 164 ≤ (164#16).toNat ∧ (163#16).toNat < 164)
      ∧ ((withOpen { Pool.reset with free := 0#128 }).pool.freeCount = 0
        ∧ (touchedSlots 163 1).length = 1)
      ∧ queueSound (withOpen Pool.reset) = true ∧ poolSound (withOpen Pool.reset) = true
      ∧ (touchedSlots 40 64).length ≤ (withOpen Pool.reset).pool.freeCount := by decide +kernel

theorem witness_ClosePassAndCancelEntry :
    linkOpen (withOpen Pool.reset) = true ∧ (∀ e ∈ (withOpen Pool.reset).queue, e.tag ≠ 9#8)
      ∧ (findEntry (withOpen Pool.reset).queue 7#8 = some openPass7 ∧ openPass7.state = .opened)
      ∧ (linkOpen pauseStart = true ∧ findEntry pauseStart.queue 12#8 = some (pauseEntry .active)
        ∧ (pauseEntry .active).state ≠ .opened ∧ (pauseEntry .active).state ≠ .ready)
      ∧ (findEntry (queueOf 1) 0#8 = some (advanceEntry 0#8 .ready 0)
        ∧ (homed.setQueue (queueOf 1)).runner.lookAhead = none)
      ∧ (running { Runner.reset with lookAhead := some { pausePlan with tag := 0#8 } }
          (homed.setQueue (queueOf 1))).runner.lookAhead.map Plan.tag = some 0#8 := by decide +kernel

theorem witness_QueueAdvanceAppends :
    linkOpen (homed.setQueue (queueOf 8)) = true ∧ (∃ e ∈ queueOf 8, e.tag = 7#8)
      ∧ ((∀ e ∈ queueOf 8, e.tag ≠ 8#8) ∧ 8 ≤ (queueOf 8).length)
      ∧ ((∀ e ∈ queueOf 7, e.tag ≠ 7#8) ∧ (queueOf 7).length < 8) := by decide +kernel

theorem witness_HoldsSetAndCleared :
    linkOpen homed = true ∧ homed.carriage.state ≠ .runup ∧ homed.carriage.state ≠ .sweep := by decide +kernel

/-- A run-up, a sweep with work left and one with none; with a burst running and with none. -/
theorem witness_SuspendTriggersTaken :
    (∀ s ∈ [pauseStart.setCarriage { sweeping 4000 0 0 with state := .runup }, pauseSweep 4100 0 1, pauseSweep 4200 1 1,
        (pauseSweep 4100 0 1).setDriver (driverOf 0 none none)],
      s.carriage.plan = some pausePlan ∧ linkOpen s = true ∧ s.pins.coverOpen = false ∧ s.queue = [pauseEntry .active])
      ∧ (pauseStart.setCarriage { sweeping 4000 0 0 with state := .runup }).carriage.state = .runup
      ∧ (let s := pauseSweep 4200 1 1
        s.carriage.state = .sweep ∧ s.carriage.chanA.list.length ≤ s.carriage.chanA.next
          ∧ s.carriage.chanB.list.length ≤ s.carriage.chanB.next ∧ s.driver.pendA = none ∧ s.driver.pendB = none)
      ∧ (let s := pauseSweep 4100 0 1
        s.carriage.state = .sweep ∧ s.carriage.chanA.next < s.carriage.chanA.list.length ∧ s.driver.running = none)
      ∧ ((pauseSweep 4100 0 1).setDriver (driverOf 0 none none)).driver.running = some { burst := burstA, next := 0 } := by
  decide +kernel

theorem witness_AbortStopsEverything :
    (linkOpen pauseStart = true ∧ pauseStart.events.records.length ≤ 8 ∧ pauseStart.queue = [pauseEntry .active]
        ∧ pauseStart.carriage.state = .idle ∧ pauseStart.paper.motion = none)
      ∧ (linkOpen (recorded 8 pauseStart) = true ∧ (recorded 8 pauseStart).events.records.length = 8
        ∧ (recorded 7 pauseStart).events.records.length = 7)
      ∧ (linkOpen (withOpen Pool.reset) = true ∧ (withOpen Pool.reset).queue = [openPass7])
      ∧ (linkOpen (pauseSweep 4100 0 1) = true ∧ (pauseSweep 4100 0 1).carriage.state ≠ .idle)
      ∧ ((moving (motionOf .skip 380) pauseStart).paper.motion = some (motionOf .skip 380)
        ∧ (motionOf .skip 380).stop = none)
      ∧ (stopped (motionOf .skip 380) 10 .fault).stop = some { cause := .fault, ramp := 40 }
      ∧ ((running { Runner.reset with abortPending := true } homed).runner.abortPending = true
        ∧ homed.carriage.state = .idle ∧ homed.paper.state = .idle) := by decide +kernel

/-- A fault is latched. -/
def faulted (s : State) : State := s.setRunner { s.runner with fault := some failed }

theorem witness_ClearFaultClears :
    (∀ s ∈ [State.reset.setCarriage (homingAt .host .seek 0 none .on), homed, faulted homed, faulted State.reset,
        faulted (State.reset.setCarriage { brakingAfter .halt .on with pos := none })], linkOpen s = true)
      ∧ (State.reset.setCarriage (homingAt .host .seek 0 none .on)).carriage.state = .homing
      ∧ (homed.carriage.state ≠ .homing ∧ homed.runner.fault = none)
      ∧ ((faulted homed).carriage.state ≠ .homing ∧ (faulted homed).runner.fault = some failed
        ∧ (faulted homed).carriage.pos ≠ none)
      ∧ ((faulted State.reset).carriage.pos = none ∧ (faulted State.reset).carriage.state = .unhomed)
      ∧ (let s := faulted (State.reset.setCarriage { brakingAfter .halt .on with pos := none })
        s.carriage.pos = none ∧ s.carriage.state = .braking)
      ∧ (let s := moving (stopped (motionOf (.entryAdvance 20#8) 60) 10 .fault) lookingAhead
        s.paper.motion = some (stopped (motionOf (.entryAdvance 20#8) 60) 10 .fault)
          ∧ (stopped (motionOf (.entryAdvance 20#8) 60) 10 .fault).stop = some { cause := .fault, ramp := 40 }
          ∧ held s = false ∧ (printEntry 20#8 .advancing 60 (passOf .d120 0 1 .fwd)).state ≠ .ready)
      ∧ (pauseStart.setCarriage (brakingAfter .halt .on)).carriage.brake = some .halt
      ∧ skipNeeded skipProfile 119 = true := by decide +kernel

/-- A cooling tick is owed and the head waits for the head to cool. -/
def coolingDown (h : Nat) : State :=
  (running { Runner.reset with phase := .coolWait } (homed.setHeat [h])).setTime { homed.time with coolingOwed := 1 }

theorem witness_TicksCountAndCool :
    0 < (coolingDown 4228).time.coolingOwed ∧ (coolingDown 4227).runner.phase = .coolWait
      ∧ coolHeat 4227 < 4096 ∧ 4096 ≤ coolHeat 4229
      ∧ ((coolingDown 0).setRunner Runner.reset).runner.phase ≠ .coolWait := by decide +kernel

theorem witness_UnrenewedHeatReachesZero :
    (1 ≤ 1 ∧ 32 ≤ 32) ∧ heatSound (State.reset.setHeat (List.replicate 24 16383)) = true := by decide +kernel

/-- The tear timer is due, at offset y with countdown pe. -/
def tearDue (p : Profile) (y : Nat) (pe : Option Nat) : State :=
  ((withProfile p homed).setPaper { homed.paper with y := y, pe := pe }).setTime { homed.time with tearIdle := some 0 }

theorem witness_WindowAndTearExpiry :
    (((withOpen Pool.reset).setTime { homed.time with window := some 0 }).time.window = some 0
        ∧ ∃ e ∈ (withOpen Pool.reset).queue, e.state = .opened)
      ∧ (∀ s ∈ [tearDue tearProfile 1300 none, tearDue { tearProfile with tear := some { idle := 1, offset := 0 } } 0 none,
          tearDue tearProfile 3959 (some 0)], formSound s = true)
      ∧ (tearReady (tearDue tearProfile 1300 none) = true ∧ (tearDue tearProfile 1300 none).time.tearIdle = some 0
        ∧ (2840 : Int) = ((3960 : Int) - 1300) % 3960 + 180)
      ∧ (tearReady (tearDue { tearProfile with tear := some { idle := 1, offset := 0 } } 0 none) = true
        ∧ (0 : Int) = ((3960 : Int) - 0) % 3960 + 0)
      ∧ (tearReady (tearDue tearProfile 1300 (some 0)) = true
        ∧ (tearDue tearProfile 1300 (some 0)).paper.pe = some 0) := by decide +kernel

/-- The timer runs as its conditions hold, and a PAUSE stops it; at reset it does not run and is not called for. -/
theorem witness_TearTimerConditions :
    (let s := ((withProfile tearProfile homed).setTime { homed.time with tearIdle := some 1 }).setPending [.pause];
      (tearReady s = true ∧ s.time.tearIdle ≠ none)
        ∧ after (step s) (fun t => (t.time.tearIdle, tearReady t)) = some (none, false))
      ∧ (State.reset.time.tearIdle = none ∧ tearReady State.reset = false
        ∧ after (step State.reset) (fun t => t.time.tearIdle) = some none) := by decide +kernel

/-- Stalls in homing, an approach with and without a look-ahead plan, a sweep and a braking; the two travel limits, in an
approach and in homing's rest wait; a paper motion in flight; and a homing owed. -/
theorem witness_StallLosesPosition :
    (∀ s ∈ [due (State.reset.setCarriage (homingAt .host .seek 3 none .on)), due (pauseStart.setCarriage approaching),
        due (running { Runner.reset with lookAhead := some pausePlan } (pauseStart.setCarriage approaching)),
        due (pauseSweep 4100 0 1), due (pauseStart.setCarriage (brakingAfter .halt .on)),
        due (moving (motionOf .skip 380) (pauseSweep 4100 0 1))],
      s.carriage.drive = .on ∧ s.runner.homingOwed = false ∧ s.time.stall = some 0)
      ∧ (due (pauseStart.setCarriage approaching)).carriage.resumeDue = none
      ∧ ((due (pauseSweep 4100 0 1)).carriage.plan = some pausePlan ∧ (due (pauseSweep 4100 0 1)).driver.running = none
        ∧ ((pauseSweep 4100 0 1).setDriver (driverOf 0 none none)).driver.running ≠ none
        ∧ (∀ x ∈ pausePlan.listA,
          chanOutstanding pauseStart.pool (passOf .d240 500 20 .fwd) .a x.column ≠ 0#24
            ∧ chanOutstanding Pool.reset (passOf .d240 500 20 .fwd) .a x.column = 0#24))
      ∧ ({ brakingAfter (.suspend .hold 1) .on with
          resumeDue := some { listA := pausePlan.listA, listB := pausePlan.listB } } : Carriage).resumeDue ≠ none
      ∧ (due (pauseStart.setCarriage (brakingAfter .halt .on))).carriage.brake ≠ some .abort
      ∧ (let s := pauseStart.setCarriage { approaching with pos := some 21599 }
        s.carriage.drive = .on ∧ s.carriage.state ≠ .homing ∧ s.carriage.pos = some 21599)
      ∧ (let s := pauseStart.setCarriage { approaching with pos := some 0 }
        s.carriage.drive = .on ∧ s.carriage.state ≠ .homing ∧ s.carriage.pos = some 0)
      ∧ (∀ p ∈ [0, 21599],
        let s := State.reset.setCarriage (homingAt .host .park 0 (some p) .released)
        s.carriage.state = .homing ∧ s.carriage.pos = some p)
      ∧ (owing (due (pauseStart.setCarriage (brakingAfter .halt .on)))).runner.homingOwed = true
      ∧ ((moving (motionOf .skip 380) (pauseSweep 4100 0 1)).paper.motion = some (motionOf .skip 380)
        ∧ (motionOf .skip 380).stop = none) := by decide +kernel

/-- A carriage in the rest wait of a braking, at a limit of the travel. -/
def brakedAt (c : BrakeCause) (p : Nat) : Carriage := { brakingAfter c .released with pos := some p }

/-- One count within each limit; each limit in IDLE and in the rest waits, with a look-ahead plan and with a homing owed; and
an edge without a position. -/
theorem witness_EncoderEdgeFollowed :
    ((restAt 21598).pos = some 21598 ∧ (restAt 21598).state = .idle ∧ 21599 ≤ 21599)
      ∧ ((restAt 1).pos = some 1 ∧ 1 = 0 + 1)
      ∧ ((restAt 21599).state = .idle ∧ (restAt 21599).drive = .off ∧ (restAt 21599).pos = some 21599)
      ∧ (restAt 0).pos = some 0
      ∧ (let c : Carriage := { sweeping 4036 0 0 with state := .runup };
        c.state = .runup ∧ c.pos = some 4036 ∧ c.plan = some pausePlan
          ∧ firstFiring pausePlan.dir pausePlan.listA pausePlan.listB ≠ some (4037 : Nat))
      ∧ (State.reset.carriage.state = .unhomed ∧ State.reset.carriage.drive = .off ∧ State.reset.carriage.pos = none)
      ∧ ((brakingAfter .halt .on).drive ≠ .off ∧ ({ brakingAfter .halt .on with pos := none } : Carriage).pos = none)
      ∧ ((homingAt .host .clearStop 0 none .on).pos = none ∧ (homingAt .host .clearStop 0 none .on).drive ≠ .off
        ∧ (homingAt .host .clearStop 0 none .on).homing.map Homing.stage = some .clearStop)
      ∧ (∀ p ∈ [0, 21599],
        let c : Carriage := { approaching with drive := .released, pos := some p }
        c.state = .approach ∧ c.drive = .released ∧ c.pos = some p)
      ∧ (∀ c ∈ [brakedAt (.sweepEnd 1) 0, brakedAt (.suspend .hold 1) 21599, brakedAt .halt 0, brakedAt .abort 21599],
        let s := pauseStart.setCarriage c
        s.carriage.state = .braking ∧ s.carriage.drive = .released ∧ s.runner.homingOwed = false
          ∧ s.queue = [pauseEntry .active])
      ∧ (owing (pauseStart.setCarriage (brakedAt .halt 0))).runner.homingOwed = true
      ∧ (running { Runner.reset with lookAhead := some pausePlan } (pauseStart.setCarriage approaching)).runner.lookAhead
        ≠ none := by decide +kernel

/-- The hypotheses of EncoderEdgeFollowed, StallLosesPosition, HomingSensorAndTravel and RunUpEndsAndChannelsMatch on the
direction: in any state each direction is that of an edge of one of the channels. -/
theorem witness_edge_direction : (∃ q, edgeDir q homed = .fwd) ∧ ∃ q, edgeDir q homed = .rev :=
  ⟨exists_edgeDir _ _, exists_edgeDir _ _⟩

theorem witness_HomingSensorAndTravel :
    State.reset.pins.homeCovered = !true
      ∧ (State.reset.setPins { State.reset.pins with homeCovered := true }).pins.homeCovered = !false
      ∧ (homingAt .host .clearing 150 none .on).homing.map Homing.stage = some .clearing
      ∧ (homingAt .host .seek 260 none .on).homing.map Homing.stage = some .seek
      ∧ (homingAt .host .park 0 (some 100) .on).homing.map Homing.stage = some .park
      ∧ State.reset.carriage.state ≠ .homing
      ∧ ((homingAt .runner .clearing 719 none .on).pos = none ∧ (720 : Int) = 719 + 1 ∧ (719 : Int) = 718 + 1)
      ∧ ((homingAt .host .seek 23039 none .on).drive = .on ∧ (23040 : Int) = 23039 + 1)
      ∧ (State.reset.runner.homingOwed = false ∧ State.reset.runner.fault = none) := by decide +kernel

theorem witness_RampEndAndRest :
    (∀ s ∈ [pauseStart.setCarriage (brakingAfter .halt .on), pauseStart.setCarriage approaching], s.carriage.drive = .on)
      ∧ ((homingAt .host .seekStop 0 (some 100) .on).drive = .on
        ∧ (homingAt .host .seekStop 0 (some 100) .on).homing.map Homing.stage = some .seekStop)
      ∧ (∀ g ∈ [HomingStage.clearing, .seek],
        (homingAt .host g 0 none .on).drive = .on ∧ (homingAt .host g 0 none .on).homing.map Homing.stage = some g)
      ∧ homed.carriage.drive ≠ .on ∧ (pauseSweep 4000 0 0).carriage.state = .sweep
      ∧ (∀ c ∈ [brakingAfter (.sweepEnd 1) .released, brakingAfter (.suspend .thermal 1) .released,
          brakingAfter .abort .released, { approaching with drive := .released },
          { approaching with drive := .released, pos := some 360 }, homingAt .host .clearStop 0 none .released,
          homingAt .host .seekStop 0 (some 40) .released, homingAt .host .park 0 (some 360) .released,
          homingAt .host .park 0 (some 361) .released],
        let s := due (pauseStart.setCarriage c)
        s.carriage.drive = .released ∧ s.time.stall = some 0 ∧ s.runner.homingOwed = false
          ∧ s.queue = [pauseEntry .active])
      ∧ (let s := owing (due (pauseStart.setCarriage { brakingAfter .halt .released with pos := none }))
        s.carriage.drive = .released ∧ s.time.stall = some 0 ∧ s.runner.homingOwed = true
          ∧ s.carriage.brake = some .halt)
      ∧ (({ approaching with pos := some 360 } : Carriage).pos = approaching.target ∧ approaching.pos ≠ approaching.target)
      ∧ (homingAt .host .park 0 (some 361) .released).pos ≠ some 360 := by decide +kernel

/-- Plans whose first firing position, at 4038, is channel A's and B's, A's alone, or B's alone. -/
def firstPlan (a b : Int) : Plan :=
  { pausePlan with listA := [{ column := 500, pos := a }], listB := [{ column := 500, pos := b }] }

/-- The run-up of such a plan, one count before its first firing position. -/
def runUpAt (pl : Plan) : State :=
  pauseStart.setCarriage
    { sweeping 4037 0 0 with
      state := .runup, plan := some pl
      chanA := { list := pl.listA, next := 0, armed := false }
      chanB := { list := pl.listB, next := 0, armed := false } }

/-- The sweep of such a plan at P, its driver as given. -/
def sweepOf (pl : Plan) (p : Nat) (d : Driver) : State :=
  (pauseSweep p 0 0).setCarriage
      { sweeping p 0 0 with
        plan := some pl
        chanA := { list := pl.listA, next := 0, armed := true }
        chanB := { list := pl.listB, next := 0, armed := true } }
    |>.setDriver d

/-- The driver with nothing running and nothing pending. -/
def driverFree : Driver := pauseStart.driver

/-- For each channel: the driver free, busy, or held by an open cover; and an older burst waiting, with dots, without, or of
an entry that has gone. -/
theorem witness_RunUpEndsAndChannelsMatch_bursts :
    (let u := pauseSweep 4074 0 0;
      u.queue = [pauseEntry .active] ∧ (pauseEntry .active).pass = some (passOf .d240 500 20 .fwd)
        ∧ u.driver.pendA = none ∧ u.driver.pendB = none ∧ u.driver.running = none ∧ u.carriage.state = .sweep
        ∧ u.carriage.pos ≠ none ∧ u.pins.coverOpen = false ∧ u.pool.wf = true
        ∧ groupPairs u.mech (pairsOf u.driver.pinMap (chanOutstanding u.pool (passOf .d240 500 20 .fwd) .a 500))
          = burstA.groups
        ∧ groupPairs u.mech (pairsOf u.driver.pinMap (chanOutstanding u.pool (passOf .d240 500 20 .fwd) .b 519))
          = burstB.groups)
      ∧ (driverOf 0 none none).running ≠ none
      ∧ (let u := (pauseSweep 4074 0 0).setPins { homed.pins with coverOpen := true }
        u.driver.pendA = none ∧ u.pins.coverOpen = true)
      ∧ (∀ b ∈ [burstA, { burstA with groups := [[], []] }, { burstA with orphan := true }],
        let u := (pauseSweep 4074 0 0).setDriver (driverOf 0 (some b) (some b))
        u.driver.pendA = some b ∧ u.driver.pendB = some b)
      ∧ (burstA.orphan = false ∧ burstA.groups.flatten ≠ [])
      ∧ (passOf .d240 500 20 .fwd).address (burstA.column - 500) = some 0 := by decide +kernel

/-- The run-up and the sweep one count before a position that channel A, channel B or both fire at; a sweep between two
positions; an edge the other way; and DFAULT_N asserted. -/
theorem witness_RunUpEndsAndChannelsMatch :
    (∀ pl ∈ [firstPlan 4038 4038, firstPlan 4038 4074, firstPlan 4074 4038],
      let s := runUpAt pl
      s.carriage.pos = some 4037 ∧ s.carriage.state = .runup ∧ s.carriage.plan = some pl ∧ s.carriage.drive = .on
        ∧ s.carriage.chanA = { list := pl.listA, next := 0, armed := false }
        ∧ s.carriage.chanB = { list := pl.listB, next := 0, armed := false }
        ∧ firstFiring pl.dir pl.listA pl.listB = some (4038 : Nat)
        ∧ s.queue = [pauseEntry .active] ∧ (pauseEntry .active).pass = some (passOf .d240 500 20 .fwd))
      ∧ (∀ pl ∈ [firstPlan 4074 4074, firstPlan 4074 5000, firstPlan 5000 4074, firstPlan 5000 5000],
        ∀ d ∈ [driverFree, driverOf 0 none none, driverOf 0 (some burstA) (some burstB)],
        let s := sweepOf pl 4073 d
        s.carriage.pos = some 4073 ∧ 4074 ≤ 21599 ∧ s.carriage.state = .sweep ∧ s.carriage.plan = some pl
          ∧ s.carriage.drive = .on ∧ s.queue = [pauseEntry .active]
          ∧ s.carriage.chanA.armed = true ∧ s.carriage.chanA.list[s.carriage.chanA.next]? = pl.listA.head?
          ∧ s.carriage.chanB.armed = true ∧ s.carriage.chanB.list[s.carriage.chanB.next]? = pl.listB.head?
          ∧ s.carriage.chanA.next < s.carriage.chanA.list.length)
      ∧ (let s := (sweepOf (firstPlan 21599 21599) 21598 driverFree).setPins { homed.pins with driveFault := true }
        s.carriage.pos = some 21598 ∧ 21599 ≤ 21599 ∧ s.pins.driveFault = true)
      ∧ homed.pins.driveFault = false ∧ Dir.rev ≠ pausePlan.dir := by decide +kernel

/-- The sweep with these heat values, burst A at a slot. -/
def firing (b : Burst) (h k : Nat) : State :=
  ((pauseSweep 4080 0 1).setDriver { driverOf k none none with running := some { burst := b, next := k } }).setHeat
    (h :: List.replicate 23 0)

/-- The last heat value that does not suspend and the first that does; a group with a dot, an empty one, and the burst of an
entry that has gone. -/
theorem witness_SlotFiresGroup :
    (∀ x ∈ [(burstA, 6138, 0, [(0, 0)]), (burstA, 0, 1, []), ({ burstA with orphan := true }, 0, 0, [(0, 0)])],
      let s := firing x.1 x.2.1 x.2.2.1
      s.driver.running = some { burst := x.1, next := x.2.2.1 } ∧ x.1.groups[x.2.2.1]? = some x.2.2.2
        ∧ (x.2.2.2.map Prod.snd).Nodup ∧ (∀ y ∈ x.2.2.2, y.1 < 24 ∧ y.2 < 24) ∧ s.heat.length = 24
        ∧ s.pool.wf = true ∧ s.carriage.state ≠ .runup
        ∧ (∀ y ∈ x.2.2.2, s.heat.getD y.2 0 + (4 + (activeProfile s).copies) < 6144)
        ∧ s.queue = [pauseEntry .active])
      ∧ (let s := (firing burstA 6139 0).setCarriage (sweeping 4080 1 1)
        s.carriage.state = .sweep ∧ s.carriage.chanA.list.length ≤ s.carriage.chanA.next
          ∧ s.carriage.chanB.list.length ≤ s.carriage.chanB.next ∧ s.driver.pendA = none ∧ s.driver.pendB = none
          ∧ 6144 ≤ s.heat.getD 0 0 + (4 + (activeProfile s).copies))
      ∧ (let s := firing burstA 6139 0
        s.driver.running = some { burst := burstA, next := 0 } ∧ burstA.groups[0]? = some [(0, 0)] ∧ s.heat.length = 24
          ∧ 6144 ≤ s.heat.getD 0 0 + (4 + (activeProfile s).copies) ∧ s.carriage.state = .sweep
          ∧ s.carriage.plan = some pausePlan ∧ s.carriage.chanA.next < s.carriage.chanA.list.length) := by
  decide +kernel

/-- Burst A in its last slot, with these bursts pending. -/
def ending (p a : Nat) (x y : Option Burst) : State := (pauseSweep p a 1).setDriver (driverOf 2 x y)

/-- The lists of the suspend example, whose resume columns are due. -/
def resumeLists : ResumeDue := { listA := pausePlan.listA, listB := pausePlan.listB }

theorem witness_BurstEndStartsNextOrEndsSweep :
    (∀ s ∈ [ending 4100 0 none none, ending 4100 0 (some burstA) (some burstB),
        ending 4100 0 (some { burstA with order := 2 }) (some burstB), ending 4200 1 none none],
      s.driver.running = some { burst := burstA, next := 2 } ∧ burstA.groups.length ≤ 2 ∧ s.carriage.resumeDue = none
        ∧ s.pins.driveFault = false ∧ s.carriage.state = .sweep ∧ s.carriage.pos ≠ none ∧ s.pins.coverOpen = false
        ∧ s.carriage.plan = some pausePlan ∧ s.queue = [pauseEntry .active])
      ∧ ((driverOf 1 none none).running = some { burst := burstA, next := 1 } ∧ 1 < burstA.groups.length)
      ∧ (burstA.order ≤ burstB.order ∧ burstB.order < 2)
      ∧ (let s := ending 4200 1 none none
        s.driver.pendA = none ∧ s.driver.pendB = none ∧ s.carriage.chanA.list.length ≤ s.carriage.chanA.next
          ∧ s.carriage.chanB.list.length ≤ s.carriage.chanB.next)
      ∧ (let s := ending 4100 0 none none
        s.driver.pendA = none ∧ s.driver.pendB = none ∧ s.carriage.chanA.next < s.carriage.chanA.list.length)
      ∧ (let s := ((pauseStart.setCarriage (brakingAfter .halt .on)).setDriver (driverOf 2 none none))
        s.carriage.state ≠ .sweep ∧ s.carriage.resumeDue = none)
      ∧ ((ending 4100 0 (some burstA) none).setPins { homed.pins with coverOpen := true }).pins.coverOpen = true
      ∧ ((ending 4100 0 (some burstA) none).setPins { homed.pins with driveFault := true }).pins.driveFault = true
      ∧ (let s := (pauseStart.setCarriage
          { brakingAfter (.suspend .hold 1) .on with resumeDue := some resumeLists }).setDriver (driverOf 2 none none)
        s.carriage.state ≠ .sweep ∧ s.carriage.resumeDue = some resumeLists ∧ s.queue = [pauseEntry .active]
          ∧ (∀ x ∈ resumeLists.listA, chanOutstanding s.pool (passOf .d240 500 20 .fwd) .a x.column ≠ 0#24)
          ∧ (∀ x ∈ resumeLists.listA, chanOutstanding Pool.reset (passOf .d240 500 20 .fwd) .a x.column = 0#24)) := by
  decide +kernel

/-- A sweep's burst at each slot; that of a suspend's braking, of the braking at a sweep's end and of a crossing, the resume
columns due or not; and that of an aborted entry, braking or at rest. -/
theorem witness_DriveFaultHaltsSweep :
    homed.driver.running = none
      ∧ (∀ k ∈ [0, 1, 2],
        let s := (pauseSweep 4100 0 1).setDriver (driverOf k none none)
        s.driver.running = some { burst := burstA, next := k } ∧ burstA.orphan = false ∧ s.carriage.state = .sweep
          ∧ s.carriage.plan = some pausePlan ∧ s.queue = [pauseEntry .active] ∧ s.pool.wf = true)
      ∧ (∀ c ∈ [{ brakingAfter (.suspend .hold 1) .on with resumeDue := some resumeLists },
          brakingAfter (.suspend .hold 1) .on, brakingAfter (.sweepEnd 1) .on,
          { Carriage.reset with resumeDue := some resumeLists }],
        let s := (pauseStart.setCarriage c).setDriver (driverOf 1 none none)
        s.driver.running = some { burst := burstA, next := 1 } ∧ s.carriage.state ≠ .sweep
          ∧ s.queue = [pauseEntry .active] ∧ s.pool.wf = true)
      ∧ ((moving (motionOf .skip 380) pauseStart).paper.motion = some (motionOf .skip 380)
        ∧ (motionOf .skip 380).stop = none ∧ pauseStart.paper.motion = none)
      ∧ (∀ c ∈ [brakingAfter .abort .on, restAt 360],
        let s := (homed.setCarriage c).setDriver
          { driverOf 0 none none with running := some { burst := { burstA with orphan := true }, next := 0 } }
        s.driver.running = some { burst := { burstA with orphan := true }, next := 0 } ∧ s.carriage.state ≠ .sweep
          ∧ s.carriage.brake ≠ some (.suspend .hold 1) ∧ s.carriage.resumeDue = none ∧ s.paper.motion = none) := by
  decide +kernel

theorem witness_PaperSensorChanges :
    (homed.pins.paperSeen = true ∧ homed.pins.resetLow = false)
      ∧ ((homed.setPins { homed.pins with paperSeen := false }).pins.paperSeen = false)
      ∧ (heldLow homed).pins.resetLow = true := by decide +kernel

/-- A motion in flight with the countdown at pe and the suspend example's entry at the head. -/
def feeding (m : Motion) (pe : Option Nat) : State :=
  moving m (pauseStart.setPaper { pauseStart.paper with pe := pe })

/-- Forward and back, tractor and friction, free and in a ramp-down; PE absent or at 2. Then PE at 1, for each purpose. -/
theorem witness_FeedUnitMovesOrStops :
    (∀ m ∈ [motionOf .skip 1, motionOf .retract (-1), { motionOf .skip 5 with path := .friction },
        stopped (motionOf (.entryAdvance 12#8) (-50)) 10 .fault],
      let s := feeding m (some 2)
      s.paper.motion = some m ∧ m.moved < m.distance.natAbs ∧ m.stop.all (fun x => decide (0 < x.ramp)) = true
        ∧ 0 < (activeProfile s).length ∧ s.paper.pe ≠ some 0 ∧ s.paper.pe ≠ some 1 ∧ s.paper.a ≤ 2)
      ∧ (∀ m ∈ [motionOf .tear 1, motionOf .skip 2, motionOf (.entryAdvance 12#8) 2, motionOf (.entryAdvance 12#8) 1,
          stopped (motionOf (.entryAdvance 12#8) 50) 10 .abort],
        let s := feeding m (some 1)
        s.paper.motion = some m ∧ 0 < m.distance ∧ m.moved < m.distance.natAbs
          ∧ m.stop.all (fun x => decide (0 < x.ramp)) = true ∧ s.paper.pe = some 1 ∧ s.queue = [pauseEntry .active]) := by
  decide +kernel

/-- The whole of a skip, with PE one more than its units; and the whole of a retract. -/
theorem witness_FeedUnitsGiveOneSum :
    (∀ m ∈ [motionOf .skip 380, motionOf .retract (-100)],
      let s := feeding m (some 381)
      s.paper.motion = some m ∧ m.stop = none ∧ m.moved + m.distance.natAbs ≤ m.distance.natAbs
        ∧ s.paper.y < (activeProfile s).length ∧ s.paper.a ≤ 2 ∧ s.paper.pe = some 381 ∧ m.distance.natAbs < 381) := by
  decide +kernel

/-- A head entry in RETRACT, the paper as a motion leaves it. -/
def retracting (m : Motion) : State := running { Runner.reset with phase := .retract } (feeding m none)

/-- Whole motions of each purpose, with and without a plan held; stopped ones, with units left and with none; and parks of 0 and
more that are retracted at once, wait for a hold, and are no head's. -/
theorem witness_MotionEndReported :
    (∀ m ∈ [{ motionOf (.entryAdvance 12#8) 60 with moved := 60 }, { motionOf .tear 9 with moved := 9 },
        { motionOf .skip 380 with moved := 380 }, { motionOf .retract (-9) with moved := 9 }],
      let s := feeding m none
      s.paper.motion = some m ∧ m.stop = none ∧ m.moved = m.distance.natAbs ∧ s.queue = [pauseEntry .active]
        ∧ s.events.records.length ≤ 8 ∧ s.runner.phase ≠ .retract
        ∧ skipNeeded (activeProfile s) s.paper.y = false ∧ s.runner.headPlan = none)
      ∧ (running { Runner.reset with phase := .prep, headPlan := some pausePlan } pauseStart).runner.headPlan ≠ none
      ∧ (recorded 8 (feeding { motionOf (.entryAdvance 12#8) 60 with moved := 60 } none)).events.records.length = 8
      ∧ ((feeding (motionOf .skip 380) none).paper.motion = some (motionOf .skip 380) ∧ (motionOf .skip 380).moved ≠ 380)
      ∧ (∀ m ∈ [stopped (motionOf .skip 380) 10 .abort, stopped (motionOf .skip 380) 10 .fault,
          stopped (motionOf (.entryAdvance 12#8) 60) 10 .abort, stopped (motionOf (.entryAdvance 12#8) 60) 59 .fault,
          stopped (motionOf .tear 60) 0 .fault, stopped (motionOf .retract (-9)) 8 .fault],
        let s := feeding m none
        s.paper.motion = some m ∧ m.stop.isSome = true ∧ s.runner.phase ≠ .retract ∧ s.queue = [pauseEntry .active]
          ∧ m.moved < m.distance.natAbs)
      ∧ (∀ m ∈ [stopped (motionOf (.entryAdvance 12#8) 60) 60 .fault, stopped (motionOf .retract (-9)) 9 .fault,
          stopped (motionOf .retract (-9)) 9 .abort],
        (feeding m none).paper.motion = some m ∧ m.stop.isSome = true ∧ m.distance.natAbs ≤ m.moved
          ∧ (60 : Int) - (60 : Nat) = 0)
      ∧ (∀ m ∈ [{ motionOf .tear 9 with moved := 9 }, stopped (motionOf .tear 60) 0 .fault,
          stopped (motionOf .retract (-9)) 8 .fault],
        let s := retracting m
        s.runner.phase = .retract ∧ held s = false ∧ clearHoming s = false ∧ s.carriage.state ≠ .braking
          ∧ s.queue = [pauseEntry .active])
      ∧ (let s := faulted (retracting (motionOf .tear 9))
        s.runner.phase = .retract ∧ held s = true) := by decide +kernel

theorem witness_TakeUpStartsHead :
    ((homed.setQueue [pauseEntry .ready]).queue = [pauseEntry .ready] ∧ (pauseEntry .ready).state = .ready
        ∧ homed.runner = Runner.reset ∧ homed.pins.coverOpen = false ∧ homed.carriage.homing = none)
      ∧ homed.paper.state = .idle
      ∧ ((advanceEntry 8#8 .ready 5).pass = none ∧ approaching.state = .approach ∧ homed.runner.lookAhead = none
        ∧ (running { Runner.reset with lookAhead := some pausePlan } homed).runner.lookAhead ≠ none)
      ∧ ((homed.setPaper { homed.paper with state := .tearParked, park := some 1 }).paper.park = some 1)
      ∧ (let s := homed.setPaper { homed.paper with state := .tearParked, park := some 0 }
        s.paper.state = .tearParked ∧ s.paper.park = some 0 ∧ faultStopping s = false)
      ∧ (let s := running { Runner.reset with phase := .retract }
          ((homed.setPaper { homed.paper with state := .tearParked, park := some 7 }).setQueue [pauseEntry .active]);
        s.runner.phase = .retract ∧ s.paper.park = some 7 ∧ (pauseEntry .active).state ≠ .ready ∧ runnerFree s = true
          ∧ runnerFree (faulted s) = false)
      ∧ ((moving (motionOf .tear 9) homed).paper.state = .advancing
        ∧ (moving (motionOf .tear 9) homed).paper.motion = some (motionOf .tear 9))
      ∧ ((withOpen Pool.reset).queue = [openPass7] ∧ openPass7.state = .opened
        ∧ (withOpen Pool.reset).runner.phase ≠ .retract)
      ∧ (faulted (homed.setQueue (queueOf 1))).runner.fault ≠ none := by decide +kernel

/-- A head entry in PREP, at a point of it. -/
def prepping (pt : Point) (prof : Profile) (y : Nat) (pe : Option Nat) (rows : Option Rows) : State :=
  running { Runner.reset with phase := .prep, point := pt } (((withProfile prof pauseStart).setPaper
    { homed.paper with y := y, pe := pe }).setQueue
      [printEntry 12#8 .active 60 { passOf .d240 500 20 .fwd with suppressed := rows }])

theorem witness_PrepAndMasking :
    ((prepping .skipCheck skipProfile 3700 none none).runner.point = .skipCheck
        ∧ (prepping .skipCheck skipProfile 3700 none none).paper.state = .idle
        ∧ skipNeeded skipProfile 119 = true ∧ skipNeeded skipProfile 120 = false ∧ skipNeeded skipProfile 3673 = false
        ∧ skipNeeded skipProfile 3674 = true)
      ∧ runnerFree (prepping .skipCheck skipProfile 3700 none none) = true
      ∧ held (faulted (prepping .skipCheck skipProfile 3700 none none)) = true
      ∧ (let s := prepping .skipCheck skipProfile 3700 none none
        recovering (running { s.runner with pause := true, firstOrderDue := true } s) = false
          ∧ held (running { s.runner with pause := true, firstOrderDue := true } s) = true
          ∧ (prepping .skipCheck skipProfile 3700 none none).runner.firstOrderDue = false)
      ∧ (380 : Int) = ((120 : Int) - 3700) % 3960
      ∧ (prepping .skipCheck skipProfile 3700 (some 0) none).paper.pe = some 0
      ∧ ((prepping .mask Profile.default 0 (some 0) none).runner.point = .mask
        ∧ (prepping .mask Profile.default 0 (some 0) none).paper.pe = some 0)
      ∧ (prepping .mask Profile.default 0 (some 46) none).paper.pe ≠ some 0
      ∧ (∀ c, c < 20 → (passColumn pauseStart.pool (passOf .d240 500 20 .fwd) c).fired = 0#24
          ∧ (passColumn pauseStart.pool (passOf .d240 500 20 .fwd) c).lost = 0#24)
      ∧ (hasWork pauseStart.pool (passOf .d240 500 20 .fwd) = true
        ∧ hasWork Pool.reset (passOf .d240 500 20 .fwd) = false) := by decide +kernel

theorem witness_SkipAndFormFeedReachTheirMark :
    formSound ((withProfile skipProfile homed).setPaper { homed.paper with y := 3959 }) = true
      ∧ skipNeeded skipProfile 3959 = true ∧ skipProfile.top < skipProfile.length ∧ 3959 < skipProfile.length
      ∧ 120 = skipProfile.top := by decide +kernel

theorem witness_HeatChecksAndResumes :
    (pauseStart.queue = [pauseEntry .active] ∧ (pauseEntry .active).pass = some (passOf .d240 500 20 .fwd))
      ∧ (running { Runner.reset with phase := .prep, point := .heat } pauseStart).runner.point = .heat
      ∧ ((running { Runner.reset with phase := .sweep, point := .heat } pauseStart).runner.phase = .sweep
        ∧ (running { Runner.reset with phase := .coolWait } pauseStart).runner.phase = .coolWait
        ∧ pauseStart.runner.phase = .position ∧ pauseStart.runner.headPlan = none ∧ carriageAtRest pauseStart = true)
      ∧ ((running { Runner.reset with phase := .sweep } (pauseStart.setQueue [pauseEntry .halted])).runner.phase = .sweep
        ∧ runnerFree pauseStart = true ∧ carriageAtRest pauseStart = true)
      ∧ ((pauseEntry .suspended).state = .suspended ∧ hmax (homed.setHeat [3071]) < 3072
        ∧ 3072 ≤ hmax (homed.setHeat [3072]))
      ∧ held (faulted homed) = true := by decide +kernel

theorem witness_PositionHomesOrPlans :
    (pauseStart.queue = [pauseEntry .active] ∧ pauseStart.runner.phase = .position ∧ pauseStart.runner.headPlan = none
        ∧ runnerFree pauseStart = true ∧ pauseStart.carriage.state = .idle ∧ driverIdle pauseStart = true)
      ∧ (pauseStart.setCarriage Carriage.reset).carriage.pos = none
      ∧ (madePlan (planSweep pauseStart 12#8 (passOf .d240 500 20 .fwd) 360)).map Plan.start = some 3798
      ∧ (madePlan (planSweep pauseStart 12#8 (passOf .d240 500 20 .fwd) 3798)).map Plan.start = some 3798
      ∧ planSweep (pauseStart.setPool Pool.reset) 12#8 (passOf .d240 500 20 .fwd) 360 = .noColumn
      ∧ planSweep (pauseStart.setHeat [5120]) 12#8 (passOf .d240 500 20 .fwd) 360 = .tooHot := by decide +kernel

/-- The power-on configuration with one firing group. -/
def oneGroup : Mech := { Mech.powerOn with phaseCount := 1, groupMap := List.replicate 24 0 }

/-- Plans at Hmax 2047, 2048, 3072, 4096 and 5119; of an entry already planned; of columns that touch and of columns that do
not; of each preference, and of a profile without bidirectional printing; and one whose grade the left limit lowers from 3 to
1 (384 − 720 and 387 − 480 lie below 0, 390 − 240 does not). -/
theorem witness_PlansFitTravelAndCaps :
    mechSound pauseStart = true ∧ passSound (passOf .d240 500 20 .fwd) = true
      ∧ (∀ h ∈ [2047, 2048, 3072, 4096, 5119],
        (madePlan (planSweep (pauseStart.setHeat [h]) 12#8 (passOf .d240 500 20 .fwd) 360)).isSome = true)
      ∧ (madePlan (planSweep pauseStart 12#8 { passOf .d240 500 20 .fwd with dir := some .rev } 360)).isSome = true
      ∧ (madePlan (planSweep (pauseStart.setMech oneGroup) 12#8
          (passOf .d240 500 20 .fwd) 360)).map Plan.grade = some 1
      ∧ (madePlan (planSweep ((pauseStart.setMech oneGroup).setPool
          (poolOf [3#24, 0#24, 3#24])) 12#8 (passOf .d240 500 20 .fwd) 360)).map Plan.grade = some 3
      ∧ (∀ x ∈ [(Preference.rev, 360, Dir.rev), (.any, 360, .fwd), (.any, 5000, .rev)],
        (madePlan (planSweep pauseStart 12#8 (passOf .d240 500 20 x.1) x.2.1)).map Plan.dir = some x.2.2)
      ∧ (madePlan (planSweep (withProfile { Profile.default with bidir := false } pauseStart) 12#8
          (passOf .d240 500 20 .rev) 360)).map Plan.dir = some .fwd
      ∧ (let s := (pauseStart.setMech { oneGroup with origin := 396 }).setPool (poolOf [1#24])
        mechSound s = true ∧ (madePlan (planSweep s 12#8 (passOf .d60 0 1 .fwd) 500)).map Plan.grade = some 1)
      ∧ planSweep (pauseStart.setHeat [5120]) 12#8 (passOf .d240 500 20 .fwd) 360 = .tooHot
      ∧ (let p := { passOf .d240 500 20 .fwd with dir := some .fwd, resumeA := some .done, resumeB := some (.column 519) };
        p.dir ≠ none ∧ (madePlan (planSweep pauseStart 12#8 p 360)).map (fun x => (x.listA.length, x.listB.length))
            = some (0, 1)
          ∧ planSweep pauseStart 12#8 { p with resumeB := some .done } 360 = .noColumn) := by
  decide +kernel

/-- The plan of the suspend example is held for the head. -/
def planned (c : Carriage) : State :=
  running { Runner.reset with phase := .position, headPlan := some pausePlan } (pauseStart.setCarriage c)

theorem witness_SweepOrderGivesRunUp :
    ((planned (restAt 3798)).queue = [pauseEntry .active] ∧ (planned (restAt 3798)).runner.headPlan = some pausePlan
        ∧ (planned (restAt 3798)).paper.state = .idle ∧ runnerFree (planned (restAt 3798)) = true)
      ∧ held (faulted (planned (restAt 3798))) = true ∧ (planned Carriage.reset).carriage.pos = none
      ∧ pausePlan.start = 3798 ∧ ((planned homed.carriage).carriage.pos = some 360 ∧ pausePlan.start ≠ 360
        ∧ 0 ≤ pausePlan.start) := by decide +kernel

theorem witness_AdvanceOrdersGiven :
    (let s := running { Runner.reset with phase := .advance } (pauseStart.setPool Pool.reset);
      s.queue = [pauseEntry .active] ∧ s.runner.phase = .advance ∧ s.paper.state = .idle
        ∧ anyOutstanding s.pool (passOf .d240 500 20 .fwd) = false ∧ (pauseEntry .active).state = .active
        ∧ held s = false ∧ recovering s = false ∧ s.carriage.state = .idle ∧ s.paper.pe ≠ some 0)
      ∧ (∀ n ∈ [-360, 0, 1, 1440],
        (advanceEntry 8#8 .advancing n).pass = none ∧ (advanceEntry 8#8 .advancing n).state = .advancing
          ∧ (advanceEntry 8#8 .advancing n).advance = .distance n)
      ∧ (let s := running { Runner.reset with phase := .advance, pause := true, firstOrderDue := true }
          (homed.setQueue [advanceEntry 8#8 .advancing 5])
        held s = true ∧ recovering s = false ∧ s.runner.firstOrderDue = true)
      ∧ (approaching.state = .approach
        ∧ (running { Runner.reset with lookAhead := some pausePlan } homed).runner.lookAhead ≠ none)
      ∧ held (faulted pauseStart) = true ∧ (faulted pauseStart).runner.firstOrderDue = false
      ∧ (pauseStart.setPaper { homed.paper with pe := some 0 }).paper.pe = some 0
      ∧ (let s := running { Runner.reset with phase := .advance } pauseStart
        s.queue = [pauseEntry .active] ∧ (pauseEntry .active).pass = some (passOf .d240 500 20 .fwd)
          ∧ anyOutstanding s.pool (passOf .d240 500 20 .fwd) = true) := by decide +kernel

theorem witness_LookAheadPlansNextEntry :
    (lookingAhead.queue.map Entry.state = [.advancing, .ready]
        ∧ lookingAhead.paper.motion = some (motionOf (.entryAdvance 20#8) 60) ∧ lookingAhead.paper.state = .advancing
        ∧ (60 : Int) = 60 - (0 : Nat))
      ∧ (lookingAhead.carriage.state = .idle ∧ lookingAhead.carriage.pos = some 5000 ∧ lookingAhead.runner.lookAhead = none
        ∧ runnerFree lookingAhead = true)
      ∧ 5120 ≤ hmax (lookingAhead.setHeat [5120])
      ∧ (skipNeeded (activeProfile lookingAhead) 1060 = false ∧ hmax lookingAhead < 5120)
      ∧ (madePlan (planSweep lookingAhead 21#8 (passOf .d120 100 40 .any) 5000)).map Plan.start = some 3237
      ∧ (madePlan (planSweep (lookingAhead.setCarriage (restAt 3237)) 21#8
          { passOf .d120 100 40 .any with dir := some .rev } 3237)).map Plan.start = some 3237 := by decide +kernel

/-- A frame in the assembler and two replies in the FIFO. -/
theorem witness_StepKeepsLinkSound :
    let s := (fullFifo (inFrame .length [0xE7#8] none)).setPending [.byteReceived 0#8]
    fifoSound s = true ∧ assemblerSound s = true
      ∧ assemblerSound (inFrame .check [0xE7#8, 1#8, 2#8, 0x7C#8] (some 1)) = true := by decide +kernel

/-- Eight entries with the head started. -/
theorem witness_StepKeepsQueueSound :
    let s := homed.setQueue (pauseEntry .active :: queueOf 7)
    queueSound s = true ∧ headOnlySound s = true ∧ recordsSound s = true := by decide +kernel

/-- An entry before its sweep, in it with a burst running and one waiting, with a dot fired and one lost, and OPEN. -/
theorem witness_StepKeepsPoolConserved :
    (∀ s ∈ [pauseStart, (pauseSweep 4080 1 1).setDriver (driverOf 0 none (some burstB)),
        (pauseStart.setPool { poolOf [] with cells := [(0, { dots := 3#24, fired := 1#24, lost := 2#24 })] }).setQueue
          [printEntry 12#8 .advancing 60 { passOf .d240 500 20 .fwd with dotsFired := 1, dotsLost := 1 }],
        withOpen Pool.reset],
      queueSound s = true ∧ poolSound s = true ∧ paperSound s = true ∧ dotsSound s = true)
      ∧ (pauseStart.queue = [pauseEntry .active] ∧ (passOf .d240 500 20 .fwd).suppressed = some 0#24)
      ∧ ((withOpen Pool.reset).queue = [openPass7] ∧ openPass7.pass.map Pass.suppressed = some none) := by decide +kernel

theorem witness_StepKeepsCarriageSound :
    (∀ s ∈ [pauseSweep 4100 0 1, homed.setCarriage approaching, homed.setCarriage (homingAt .host .seek 9 none .on),
        homed.setCarriage (restAt 21599)], carriageSound s = true ∧ positionSound s = true)
      ∧ (∀ s ∈ [homed.setCarriage (homingAt .host .clearing 9 none .on), homed.setCarriage approaching,
          homed.setCarriage (homingAt .host .park 0 (some 359) .on), homed.setCarriage (homingAt .host .park 0 (some 361) .on),
          homed.setCarriage { sweeping 4036 0 0 with state := .runup }],
        carriageSound s = true ∧ carEn s = true) := by decide +kernel

/-- A motion, a park, OUT, and a reset held by RESET_N. -/
theorem witness_StepKeepsPaperSound :
    (∀ s ∈ [feeding (motionOf .skip 380) none, homed.setPaper { homed.paper with state := .tearParked, park := some 9359 },
        (homed.setPaper { homed.paper with pe := some 0, state := .out }).setPins { homed.pins with paperSeen := false },
        heldLow homed], paperSound s = true) := by decide +kernel

theorem witness_StepKeepsConfigurationSound :
    let s := (withProfile skipProfile homed).setPaper { homed.paper with y := 3959 }
    mechSound s = true ∧ pinMapSound s = true ∧ maskSound s = true ∧ formSound s = true ∧ heatSound s = true := by
  decide +kernel

end Sys2Proof.Tests
end

section
/-! The held configuration: what the acts of the machine leave of it, and the acts that set it. -/

namespace Sys2Proof.Machine

/-! ## The settings -/

/-- What the configuration's ranges speak of: the part of each block that a setting or the head's heat stands in. -/
structure Settings where
  mech : Mech
  pinMap : List Nat
  mask : Word
  forms : Forms
  y : Nat
  heat : List Nat

/-- The settings of a state. -/
def settings (s : State) : Settings where
  mech := s.mech
  pinMap := s.driver.pinMap
  mask := s.events.mask
  forms := s.forms
  y := s.paper.y
  heat := s.heat

/-! ### One block replaced -/

@[simp] theorem settings_setLink (s : State) (x : Link) : settings (s.setLink x) = settings s := rfl
@[simp] theorem settings_setQueue (s : State) (x : List Entry) : settings (s.setQueue x) = settings s := rfl
@[simp] theorem settings_setPool (s : State) (x : Pool) : settings (s.setPool x) = settings s := rfl
@[simp] theorem settings_setRunner (s : State) (x : Runner) : settings (s.setRunner x) = settings s := rfl
@[simp] theorem settings_setCarriage (s : State) (x : Carriage) : settings (s.setCarriage x) = settings s := rfl
@[simp] theorem settings_setTime (s : State) (x : TimeBase) : settings (s.setTime x) = settings s := rfl
@[simp] theorem settings_setPins (s : State) (x : Pins) : settings (s.setPins x) = settings s := rfl
@[simp] theorem settings_setOutputs (s : State) (x : Outputs) : settings (s.setOutputs x) = settings s := rfl
@[simp] theorem settings_setPending (s : State) (x : List Instr) : settings (s.setPending x) = settings s := rfl

@[simp] theorem settings_setDriver {s : State} {x : Driver} (h : x.pinMap = s.driver.pinMap) :
    settings (s.setDriver x) = settings s := by simp [settings, h]

@[simp] theorem settings_setEvents {s : State} {x : Events} (h : x.mask = s.events.mask) :
    settings (s.setEvents x) = settings s := by simp [settings, h]

@[simp] theorem settings_setPaper {s : State} {x : Paper} (h : x.y = s.paper.y) :
    settings (s.setPaper x) = settings s := by simp [settings, h]

/-! ### Machine/Ops.lean -/

@[simp] theorem settings_latch (e : Event) (s : State) : settings (latch e s) = settings s := by simp [latch]

@[simp] theorem settings_pushRecord (c : Completion) (s : State) : settings (pushRecord c s) = settings s := by
  unfold pushRecord; split <;> simp

@[simp] theorem settings_mapHead (f : Entry → Entry) (s : State) : settings (mapHead f s) = settings s := by
  simp [settings]

@[simp] theorem settings_mapHeadPass (f : Pass → Pass) (s : State) : settings (mapHeadPass f s) = settings s := by
  simp [settings]

@[simp] theorem settings_setHeadState (st : EntryState) (s : State) : settings (setHeadState st s) = settings s := by
  simp [settings]

@[simp] theorem settings_freeEntry (e : Entry) (s : State) : settings (freeEntry e s) = settings s := by
  simp [settings]

@[simp] theorem settings_updateHeadColumn (c : Nat) (f : Column → Column) (s : State) :
    settings (updateHeadColumn c f s) = settings s := by simp [settings]

@[simp] theorem settings_startStall (s : State) : settings (startStall s) = settings s := by simp [settings]

@[simp] theorem settings_stopStall (s : State) : settings (stopStall s) = settings s := by simp [settings]

@[simp] theorem settings_stopWindow (s : State) : settings (stopWindow s) = settings s := by simp [settings]

@[simp] theorem settings_settleTear (s : State) : settings (settleTear s) = settings s := by simp [settings]

@[simp] theorem settings_stopTear (s : State) : settings (stopTear s) = settings s := by simp [settings]

@[simp] theorem settings_firstOrderGiven (s : State) : settings (firstOrderGiven s) = settings s := by simp [settings]

@[simp] theorem settings_clearPhase (s : State) : settings (clearPhase s) = settings s := by simp [settings]

@[simp] theorem settings_retire (s : State) : settings (retire s) = settings s := by
  unfold retire; split <;> simp

/-! ### Machine/Paper.lean -/

@[simp] theorem settings_firstPhase (s : State) : settings (firstPhase s) = settings s := by simp [settings]

@[simp] theorem settings_prepCheck (s : State) : settings (prepCheck s) = settings s := by simp [settings]

@[simp] theorem settings_writeRemaining (n : Int) (s : State) : settings (writeRemaining n s) = settings s := by
  unfold writeRemaining; split <;> simp

@[simp] theorem settings_reportDone (p : Purpose) (s : State) : settings (reportDone p s) = settings s := by
  cases p <;> simp [reportDone]

@[simp] theorem settings_setPause (b : Bool) (s : State) : settings (setPause b s) = settings s := by simp [settings]

@[simp] theorem settings_parkAt (d : Nat) (s : State) : settings (parkAt d s) = settings s := by simp [parkAt]

@[simp] theorem settings_restPaper (st : PaperState) (s : State) : settings (restPaper st s) = settings s := by
  simp [restPaper]

@[simp] theorem settings_paperEndStop (m : Motion) (s : State) : settings (paperEndStop m s) = settings s := by
  unfold paperEndStop; (repeat' split) <;> simp

@[simp] theorem settings_takeOrder (p : Purpose) (d : Int) (s : State) : settings (takeOrder p d s) = settings s := by
  unfold takeOrder; dsimp only; (repeat' split) <;> simp

@[simp] theorem settings_giveRetract (s : State) : settings (giveRetract s) = settings s := by
  unfold giveRetract; split <;> simp

@[simp] theorem settings_stopPaper (c : StopCause) (s : State) : settings (stopPaper c s) = settings s := by
  unfold stopPaper; split <;> simp

@[simp] theorem settings_completeMotion (m : Motion) (s : State) : settings (completeMotion m s) = settings s := by
  unfold completeMotion; split <;> simp

@[simp] theorem settings_endStopped (m : Motion) (s : State) : settings (endStopped m s) = settings s := by
  unfold endStopped; (repeat' split) <;> simp

@[simp] theorem settings_paperMotionComplete (s : State) : settings (paperMotionComplete s) = settings s := by
  unfold paperMotionComplete; (repeat' split) <;> simp

@[simp] theorem settings_tearIdleTimerExpiry (s : State) : settings (tearIdleTimerExpiry s) = settings s := by
  unfold tearIdleTimerExpiry; dsimp only; (repeat' split) <;> simp

@[simp] theorem settings_paperGone (s : State) : settings (paperGone s) = settings s := by
  unfold paperGone; dsimp only; (repeat' split) <;> simp [settings, latch]

@[simp] theorem settings_paperBack (s : State) : settings (paperBack s) = settings s := by
  unfold paperBack; dsimp only; (repeat' split) <;> simp [settings]

/-! ### Machine/Carriage.lean -/

@[simp] theorem settings_raiseFault (code : FaultCode) (tag : Option Byte) (pos : Option Nat) (s : State) :
    settings (raiseFault code tag pos s) = settings s := by
  unfold raiseFault; split <;> simp

@[simp] theorem settings_homingOrder (src : HomingSource) (s : State) : settings (homingOrder src s) = settings s := by
  simp [settings]

@[simp] theorem settings_approachOrder (n : Nat) (s : State) : settings (approachOrder n s) = settings s := by
  simp [settings]

@[simp] theorem settings_giveSweep (p : Plan) (s : State) : settings (giveSweep p s) = settings s := by
  simp [settings]

@[simp] theorem settings_giveOwedHoming (s : State) : settings (giveOwedHoming s) = settings s := by simp [settings]

@[simp] theorem settings_flushResume (s : State) : settings (flushResume s) = settings s := by simp [settings]

@[simp] theorem settings_dropPending (s : State) : settings (dropPending s) = settings s := by simp [dropPending]

@[simp] theorem settings_brakeFor (c : BrakeCause) (s : State) : settings (brakeFor c s) = settings s := by
  simp [settings]

@[simp] theorem settings_stopSweep (c : BrakeCause) (s : State) : settings (stopSweep c s) = settings s := by
  simp [stopSweep]

@[simp] theorem settings_suspendTrigger (r : SuspendReason) (s : State) :
    settings (suspendTrigger r s) = settings s := by
  unfold suspendTrigger; (repeat' split) <;> simp

@[simp] theorem settings_checkSweepEnd (s : State) : settings (checkSweepEnd s) = settings s := by simp [settings]

@[simp] theorem settings_carriageLost (s : State) : settings (carriageLost s) = settings s := by simp [carriageLost]

@[simp] theorem settings_dropApproached (s : State) : settings (dropApproached s) = settings s := by simp [settings]

@[simp] theorem settings_stall (pos : Option Nat) (s : State) : settings (stall pos s) = settings s := by
  unfold stall; dsimp only; (repeat' split) <;> simp

@[simp] theorem settings_stallTimerExpiry (s : State) : settings (stallTimerExpiry s) = settings s := by
  unfold stallTimerExpiry; split <;> simp

@[simp] theorem settings_brakeRampEnd (s : State) : settings (brakeRampEnd s) = settings s := by simp [settings]

@[simp] theorem settings_finishBraking (s : State) : settings (finishBraking s) = settings s := by
  unfold finishBraking; dsimp only; split <;> simp

@[simp] theorem settings_homingRest (h : Homing) (s : State) : settings (homingRest h s) = settings s := by
  unfold homingRest homingStage; (repeat' split) <;> simp

@[simp] theorem settings_restDetected (s : State) : settings (restDetected s) = settings s := by
  unfold restDetected; (repeat' split) <;> simp

@[simp] theorem settings_homeSensorChange (b : Bool) (s : State) : settings (homeSensorChange b s) = settings s := by
  simp [settings]

@[simp] theorem settings_crossLimit (n : Nat) (s : State) : settings (crossLimit n s) = settings s := by
  unfold crossLimit; dsimp only; (repeat' split) <;> simp

@[simp] theorem settings_abortCarriage (s : State) : settings (abortCarriage s) = settings s := by
  unfold abortCarriage; dsimp only; split <;> simp

/-! ### Machine/Driver.lean -/

@[simp] theorem settings_loseDots (b : Burst) (ps : List (Nat × Nat)) (s : State) :
    settings (loseDots b ps s) = settings s := by
  unfold loseDots; split <;> simp

@[simp] theorem pinMap_setPend (d : Driver) (ch : Chan) (b : Option Burst) : (d.setPend ch b).pinMap = d.pinMap := by
  cases ch <;> rfl

@[simp] theorem settings_takeMatch (ch : Chan) (c : Nat) (s : State) : settings (takeMatch ch c s) = settings s := by
  unfold takeMatch; dsimp only; (repeat' split) <;> simp

@[simp] theorem settings_startPending (s : State) : settings (startPending s) = settings s := by
  unfold startPending; (repeat' split) <;> simp

@[simp] theorem settings_haltSweep (s : State) : settings (haltSweep s) = settings s := by
  unfold haltSweep; split <;> simp

@[simp] theorem settings_takeDriveFault (s : State) : settings (takeDriveFault s) = settings s := by
  unfold takeDriveFault; dsimp only; (repeat' split) <;> simp

@[simp] theorem settings_checkDriveFault (s : State) : settings (checkDriveFault s) = settings s := by
  unfold checkDriveFault; split <;> simp

@[simp] theorem settings_driveFaultInput (b : Bool) (s : State) : settings (driveFaultInput b s) = settings s := by
  simp [driveFaultInput]

@[simp] theorem settings_fireDots (b : Burst) (ps : List (Nat × Nat)) (s : State) :
    settings (fireDots b ps s) = settings s := by simp [settings]

@[simp] theorem settings_burstEnd (s : State) : settings (burstEnd s) = settings s := by
  unfold burstEnd; dsimp only; (repeat' split) <;> simp

@[simp] theorem settings_coverOpens (s : State) : settings (coverOpens s) = settings s := by
  unfold coverOpens; split <;> simp

@[simp] theorem settings_coverCloses (s : State) : settings (coverCloses s) = settings s := by simp [settings]

@[simp] theorem settings_handMatch (ch : Chan) (hit : Option Elem) (s : State) :
    settings (handMatch ch hit s) = settings s := by
  cases hit <;> simp [handMatch]

@[simp] theorem settings_compareAt (q : Nat) (s : State) : settings (compareAt q s) = settings s := by
  unfold compareAt; dsimp only; split
  · simp; rfl
  · simp

@[simp] theorem settings_endRunUp (q : Nat) (s : State) : settings (endRunUp q s) = settings s := by simp [endRunUp]

@[simp] theorem settings_edgeAt (dir : Dir) (q : Nat) (s : State) : settings (edgeAt dir q s) = settings s := by
  unfold edgeAt; (repeat' split) <;> simp

@[simp] theorem settings_edgeUnplaced (dir : Dir) (s : State) : settings (edgeUnplaced dir s) = settings s := by
  unfold edgeUnplaced; dsimp only; (repeat' split) <;> simp

@[simp] theorem settings_countEdge (dir : Dir) (s : State) : settings (countEdge dir s) = settings s := by
  unfold countEdge; dsimp only; (repeat' split) <;> simp

@[simp] theorem settings_encoderEdge (q : Quad) (s : State) : settings (encoderEdge q s) = settings s := by
  rw [encoderEdge, settings_countEdge, turnQuad_frame, settings_setPins]

/-! ### Machine/Runner.lean -/

@[simp] theorem settings_startHead (e : Entry) (s : State) : settings (startHead e s) = settings s := by
  unfold startHead; dsimp only; split <;> simp

@[simp] theorem settings_takeUp (s : State) : settings (takeUp s) = settings s := by
  unfold takeUp; (repeat' split) <;> simp

@[simp] theorem settings_prep (s : State) : settings (prep s) = settings s := by
  unfold prep; (repeat' split) <;> simp

@[simp] theorem settings_masking (s : State) : settings (masking s) = settings s := by simp [settings]

@[simp] theorem settings_heatCheck (s : State) : settings (heatCheck s) = settings s := by simp [settings]

@[simp] theorem settings_position (s : State) : settings (position s) = settings s := by simp [settings]

@[simp] theorem settings_sweepOrder (s : State) : settings (sweepOrder s) = settings s := by simp [settings]

@[simp] theorem settings_resumeSuspended (s : State) : settings (resumeSuspended s) = settings s := by simp [settings]

@[simp] theorem settings_advanceOrder (s : State) : settings (advanceOrder s) = settings s := by
  unfold advanceOrder; (repeat' split) <;> simp

@[simp] theorem settings_advanceEntryOrder (s : State) : settings (advanceEntryOrder s) = settings s := by
  unfold advanceEntryOrder; (repeat' split) <;> simp

@[simp] theorem settings_lookAheadPlan (s : State) : settings (lookAheadPlan s) = settings s := by simp [settings]

@[simp] theorem settings_entryAborted (s : State) : settings (entryAborted s) = settings s := by
  unfold entryAborted; split <;> simp

/-! ### Machine/Requests.lean and Machine/Link.lean -/

@[simp] theorem settings_recordAborted (s : State) : settings (recordAborted s) = settings s := by
  unfold recordAborted; (repeat' split) <;> simp

@[simp] theorem settings_emptyQueue (s : State) : settings (emptyQueue s) = settings s := by simp [settings]

@[simp] theorem settings_abortAll (s : State) : settings (abortAll s) = settings s := by
  unfold abortAll; dsimp only; split <;> simp

@[simp] theorem settings_dropPark (s : State) : settings (dropPark s) = settings s := by simp [dropPark]

@[simp] theorem settings_queueReply (f : List Byte) (s : State) : settings (queueReply f s) = settings s := by
  simp [settings]

@[simp] theorem settings_clearAssembler (s : State) : settings (clearAssembler s) = settings s := by simp [settings]

@[simp] theorem settings_rejectFrame (r : Byte) (s : State) : settings (rejectFrame r s) = settings s := by
  unfold rejectFrame; dsimp only; (repeat' split) <;> simp

@[simp] theorem settings_storeByte (b : Byte) (a : Assembler) (s : State) :
    settings (storeByte b a s) = settings s := by simp [settings]

@[simp] theorem settings_lengthFault (b : Byte) (s : State) : settings (lengthFault b s) = settings s := by
  unfold lengthFault; split <;> simp

@[simp] theorem settings_lineFault (s : State) : settings (lineFault s) = settings s := by
  unfold lineFault; split <;> simp

@[simp] theorem settings_byteGapTimerExpiry (s : State) : settings (byteGapTimerExpiry s) = settings s := by
  unfold byteGapTimerExpiry; split <;> simp

/-! ### Machine/Reset.lean -/

@[simp] theorem settings_readPaperSensor (s : State) : settings (readPaperSensor s) = settings s := by
  unfold readPaperSensor; (repeat' split) <;> simp

@[simp] theorem settings_endReset (b a : Bool) (s : State) : settings (endReset b a s) = settings s := by
  simp [endReset, sampleStraps]

@[simp] theorem settings_msTick (s : State) : settings (msTick s) = settings s := by simp [settings]

@[simp] theorem settings_windowTimerExpiry (s : State) : settings (windowTimerExpiry s) = settings s := by
  unfold windowTimerExpiry; split <;> simp

/-! ## The ranges of the configuration -/

/-- The held configuration lies in its ranges (spec/01 R3, spec/04 R84, R86, spec/06 R123, R124, R128, spec/08 R165). -/
def ConfigurationSound (s : State) : Prop :=
  mechSound s = true ∧ pinMapSound s = true ∧ maskSound s = true ∧ formSound s = true ∧ heatSound s = true

theorem mechSound_congr {s t : State} (h : t.mech = s.mech) : mechSound t = mechSound s := by simp [mechSound, h]

theorem pinMapSound_congr {s t : State} (h : t.driver.pinMap = s.driver.pinMap) : pinMapSound t = pinMapSound s := by
  simp [pinMapSound, h]

theorem maskSound_congr {s t : State} (h : t.events.mask = s.events.mask) : maskSound t = maskSound s := by
  simp [maskSound, h]

theorem formSound_congr {s t : State} (hf : t.forms = s.forms) (hy : t.paper.y = s.paper.y) :
    formSound t = formSound s := by simp [formSound, activeProfile, hf, hy]

theorem heatSound_congr {s t : State} (h : t.heat = s.heat) : heatSound t = heatSound s := by simp [heatSound, h]

theorem ConfigurationSound.of_settings {s t : State} (hs : ConfigurationSound s) (h : settings t = settings s) :
    ConfigurationSound t := by
  obtain ⟨hmech, hmap, hmask, hforms, hheat⟩ := hs
  obtain ⟨emech, emap, emask, eforms, ey, eheat⟩ := Settings.mk.inj h
  exact ⟨(mechSound_congr emech).trans hmech, (pinMapSound_congr emap).trans hmap,
    (maskSound_congr emask).trans hmask, (formSound_congr eforms ey).trans hforms, (heatSound_congr eheat).trans hheat⟩

theorem configurationSound_powerOn : ConfigurationSound State.reset := by
  unfold ConfigurationSound; decide

theorem ConfigurationSound.powerOnReset (l : Levels) (s : State) : ConfigurationSound (powerOnReset l s) :=
  configurationSound_powerOn.of_settings (by simp [Machine.powerOnReset])

/-- A warm reset keeps the settings but for the attention mask, which is the power-on one again (spec/08 R167). -/
theorem ConfigurationSound.warmValues {s : State} (hs : ConfigurationSound s) : ConfigurationSound (warmValues s) := by
  obtain ⟨hmech, hmap, -, hforms, hheat⟩ := hs
  obtain ⟨-, -, hmask, -, -⟩ := configurationSound_powerOn
  exact ⟨hmech, hmap, hmask, hforms, hheat⟩

/-! ### The head's heat -/

theorem heatSound_iff (s : State) : heatSound s = true ↔ s.heat.length = 24 ∧ ∀ h ∈ s.heat, h ≤ 16383 := by
  simp only [heatSound, Bool.and_eq_true, decide_eq_true_eq, List.all_eq_true]; rfl

theorem chargeHeat_le {h : List Nat} (hh : ∀ x ∈ h, x ≤ 16383) (p e : Nat) :
    ∀ x ∈ chargeHeat h p e, x ≤ 16383 := by
  intro x hx
  rcases List.mem_or_eq_of_mem_set hx with hx | rfl
  · exact hh x hx
  · exact Nat.min_le_left _ _

theorem chargePairs_le (e : Nat) (pairs : List (Nat × Nat)) {h : List Nat} (hh : ∀ x ∈ h, x ≤ 16383) :
    ∀ x ∈ chargePairs e pairs h, x ≤ 16383 := by
  induction pairs generalizing h with
  | nil => exact hh
  | cons x t ih => exact ih (chargeHeat_le hh x.2 e)

theorem ConfigurationSound.setHeat {s : State} {h : List Nat} (hs : ConfigurationSound s) (hlen : h.length = 24)
    (hh : ∀ x ∈ h, x ≤ 16383) : ConfigurationSound (s.setHeat h) := by
  obtain ⟨hmech, hmap, hmask, hforms, -⟩ := hs
  exact ⟨hmech, hmap, hmask, hforms, (heatSound_iff _).2 ⟨hlen, hh⟩⟩

theorem ConfigurationSound.heat {s : State} (hs : ConfigurationSound s) :
    s.heat.length = 24 ∧ ∀ h ∈ s.heat, h ≤ 16383 := (heatSound_iff s).1 hs.2.2.2.2

theorem ConfigurationSound.burstSlot {s : State} (hs : ConfigurationSound s) : ConfigurationSound (burstSlot s) := by
  obtain ⟨hlen, hmax⟩ := hs.heat
  unfold Machine.burstSlot
  split
  · exact hs
  · rename_i r _
    split
    · have charged : ∀ t, settings t = settings s → t.heat = s.heat → ∀ e pairs,
          ConfigurationSound (t.setHeat (chargePairs e pairs t.heat)) := fun t ht hheat e pairs =>
        (hs.of_settings ht).setHeat (by rw [chargePairs_length, hheat, hlen]) (chargePairs_le e pairs (hheat ▸ hmax))
      dsimp only
      split
      · refine (charged _ ?_ ?_ _ _).of_settings (settings_suspendTrigger _ _) <;> simp
      · refine charged _ ?_ ?_ _ _ <;> simp
    · exact hs

theorem ConfigurationSound.coolingTick {s : State} (hs : ConfigurationSound s) :
    ConfigurationSound (coolingTick s) := by
  obtain ⟨hlen, hmax⟩ := hs.heat
  have cooled : ∀ x, ConfigurationSound ((s.setTime x).setHeat (s.heat.map coolHeat)) := fun x =>
    (hs.of_settings (settings_setTime s x)).setHeat (by simpa using hlen) (by
      simp only [List.forall_mem_map, coolHeat]
      exact fun h hh => (Nat.sub_le _ _).trans (hmax h hh))
  unfold Machine.coolingTick
  dsimp only
  split
  · split
    · exact (cooled _).of_settings (settings_setRunner _ _)
    · exact cooled _
  · exact hs

/-! ### The forms and Y -/

theorem formSound_iff (s : State) : formSound s = true ↔ s.forms.slots.length = 16
    ∧ (∃ p, s.forms.slots[s.forms.active]? = some (some p) ∧ s.paper.y < p.length)
    ∧ ∀ p, some p ∈ s.forms.slots → p.sound = true := by
  have hall : s.forms.slots.all (fun x => x.all Profile.sound) = true
      ↔ ∀ p, some p ∈ s.forms.slots → p.sound = true := by
    simp only [List.all_eq_true, Option.all_eq_true]
    exact ⟨fun h p hp => h _ hp p rfl, fun h x hx p hp => h p (hp ▸ hx)⟩
  have hlen : s.forms.slots.length = Config.formSlots ↔ s.forms.slots.length = 16 := Iff.rfl
  simp only [formSound, activeProfile, Bool.and_eq_true, decide_eq_true_eq, hall, hlen, List.getD_eq_getElem?_getD]
  rcases s.forms.slots[s.forms.active]? with _ | _ | p <;> simp [and_comm, and_left_comm]

/-- The active form of a sound configuration, by its slot. -/
theorem activeProfile_of_slot {s : State} {p : Profile} (h : s.forms.slots[s.forms.active]? = some (some p)) :
    activeProfile s = p := by simp [activeProfile, h]

/-- Y may be set to any row of the active form. -/
theorem ConfigurationSound.setY {s t : State} (hs : ConfigurationSound s) (y : Nat)
    (ht : settings t = { settings s with y := y }) (hy : y < (activeProfile s).length) : ConfigurationSound t := by
  obtain ⟨hmech, hmap, hmask, hforms, hheat⟩ := hs
  obtain ⟨emech, emap, emask, eforms, ey, eheat⟩ := Settings.mk.inj ht
  obtain ⟨hlen, ⟨p, hp, -⟩, hall⟩ := (formSound_iff s).1 hforms
  refine ⟨(mechSound_congr emech).trans hmech, (pinMapSound_congr emap).trans hmap,
    (maskSound_congr emask).trans hmask, (formSound_iff t).2 ?_, (heatSound_congr eheat).trans hheat⟩
  rw [activeProfile_of_slot hp] at hy
  rw [eforms, ey]
  exact ⟨hlen, ⟨p, hp, hy⟩, hall⟩

/-- The active form has a length. -/
theorem ConfigurationSound.activeLength {s : State} (hs : ConfigurationSound s) : 0 < (activeProfile s).length := by
  obtain ⟨-, ⟨p, hp, hy⟩, -⟩ := (formSound_iff s).1 hs.2.2.2.1
  rw [activeProfile_of_slot hp]; omega

theorem offsetUnit_lt {forward : Bool} {len y : Nat} (h : 0 < len) : offsetUnit forward len y < len := by
  cases forward <;> exact Nat.mod_lt _ h

theorem ConfigurationSound.issueUnit {s : State} (hs : ConfigurationSound s) (m : Motion) :
    ConfigurationSound (issueUnit m s) :=
  hs.setY (offsetUnit (decide (0 < m.distance)) (activeProfile s).length s.paper.y) rfl (offsetUnit_lt hs.activeLength)

theorem ConfigurationSound.feedUnit {s : State} (hs : ConfigurationSound s) : ConfigurationSound (feedUnit s) := by
  unfold Machine.feedUnit
  split
  · exact hs
  · rename_i m _
    split
    · dsimp only
      (repeat' split) <;> exact (hs.issueUnit m).of_settings (by simp)
    · exact hs

theorem ConfigurationSound.zeroY {s : State} (hs : ConfigurationSound s) : ConfigurationSound (zeroY s) :=
  hs.setY 0 rfl hs.activeLength

/-! ### Requests that set the configuration -/

/-- An owner keeps the configuration in its ranges. -/
def KeepsConfiguration (owner : State → Verdict) : Prop :=
  ∀ s, ConfigurationSound s → ConfigurationSound (owner s).state

theorem keeps_refuse (c : ResultCode) : KeepsConfiguration (refuse c) := fun _ hs => hs

theorem keeps_of_settings {owner : State → Verdict} (h : ∀ s, settings (owner s).state = settings s) :
    KeepsConfiguration owner := fun s hs => hs.of_settings (h s)

theorem mechSound_iff (s : State) : mechSound s = true ↔
    (360 ≤ s.mech.origin ∧ s.mech.origin ≤ 1500) ∧ s.mech.leads.length = 4 ∧ (∀ l ∈ s.mech.leads, l ≤ 120)
      ∧ (1 ≤ s.mech.phaseCount ∧ s.mech.phaseCount ≤ 4) ∧ s.mech.groupMap.length = 24
      ∧ (∀ g ∈ s.mech.groupMap, g < s.mech.phaseCount) ∧ s.mech.window ≤ 250 := by
  simp only [mechSound, Bool.and_eq_true, decide_eq_true_eq, List.all_eq_true, beq_iff_eq, and_assoc]

theorem mechInRange_iff (r : MechRequest) : mechInRange r = true ↔
    360 ≤ r.origin.toNat ∧ r.origin.toNat ≤ 1500 ∧ r.lead0.toNat ≤ 120 ∧ r.lead1.toNat ≤ 120
      ∧ r.lead2.toNat ≤ 120 ∧ r.lead3.toNat ≤ 120 ∧ 1 ≤ r.phaseCount.toNat ∧ r.phaseCount.toNat ≤ 4
      ∧ (∀ g ∈ r.groupMap, g.toNat < r.phaseCount.toNat) ∧ r.window.toNat ≤ 250 := by
  simp [mechInRange, and_assoc]

theorem mechSound_mechOf {r : MechRequest} (s : State) (hlen : r.groupMap.length = 24) (h : mechInRange r = true) :
    mechSound (s.setMech (mechOf r)) = true := by
  obtain ⟨hlow, hhigh, h0, h1, h2, h3, hF, hF', hmap, hwindow⟩ := (mechInRange_iff r).1 h
  exact (mechSound_iff _).2 ⟨⟨hlow, hhigh⟩, rfl, by simp [mechOf, h0, h1, h2, h3], ⟨hF, hF'⟩,
    (List.length_map _).trans hlen, List.forall_mem_map.2 hmap, hwindow⟩

theorem keeps_reqSetMech (r : MechRequest) : KeepsConfiguration (reqSetMech r) := by
  intro s hs
  unfold reqSetMech
  split
  · exact hs
  split
  · exact hs
  split
  · rename_i hlen _ hfit
    obtain ⟨-, hmap, hmask, hforms, hheat⟩ := hs
    exact ⟨mechSound_mechOf s (not_not.1 hlen) hfit, hmap, hmask, hforms, hheat⟩
  · exact hs

theorem keeps_reqSetPinMap (outs : List Byte) : KeepsConfiguration (reqSetPinMap outs) := by
  intro s hs
  unfold reqSetPinMap
  split
  · exact hs
  split
  · exact hs
  split
  · rename_i hperm
    obtain ⟨hmech, -, hmask, hforms, hheat⟩ := hs
    exact ⟨hmech, hperm, hmask, hforms, hheat⟩
  · exact hs

theorem keeps_reqSetAttnMask (m : Word) : KeepsConfiguration (reqSetAttnMask m) := by
  intro s hs
  obtain ⟨hmech, hmap, -, hforms, hheat⟩ := hs
  refine ⟨hmech, hmap, ?_, hforms, hheat⟩
  simp [maskSound, reqSetAttnMask, BitVec.and_assoc]

/-! ### The requests on forms -/

theorem Band.sound_iff (len : Nat) (b : Band) :
    b.sound len = true ↔ b.top < len ∧ 1 ≤ b.height ∧ b.top + b.height ≤ len := by
  simp [Band.sound, and_assoc]

theorem clampBand_sound {len : Nat} (h : 0 < len) (b : Band) : (clampBand len b).sound len = true := by
  rw [Band.sound_iff]
  dsimp only [clampBand]
  split <;> split <;> split <;> omega

theorem bandsOf_length : ∀ (n : Nat) (data : List Byte), data.length = 4 * n → (bandsOf data).length = n
  | 0, [], _ => rfl
  | n + 1, _ :: _ :: _ :: _ :: rest, h => by
    simp only [bandsOf, List.length_cons] at h ⊢
    rw [bandsOf_length n rest (by omega)]

theorem heldLength_range (r : FormRequest) : 360 ≤ heldLength r ∧ heldLength r ≤ 8640 := by
  unfold heldLength; omega

theorem Profile.sound_iff (p : Profile) : p.sound = true ↔
    (360 ≤ p.length ∧ p.length ≤ 8640) ∧ (p.top ≤ 720 ∧ p.top < p.length) ∧ p.skip ≤ 720
    ∧ (1 ≤ p.copies ∧ p.copies ≤ 6) ∧ p.cap ≤ 3
    ∧ (p.bands.length ≤ 4 ∧ ∀ b ∈ p.bands, b.sound p.length = true)
    ∧ (p.tear.isSome = true ↔ p.path = .tractor)
    ∧ (∀ t, p.tear = some t → t.idle ≤ 300 ∧ t.offset ≤ 720) ∧ skipTooTight p = false := by
  have htear : (p.tear.isSome == (p.path == .tractor)) = true ↔ (p.tear.isSome = true ↔ p.path = .tractor) := by
    cases p.tear <;> cases p.path <;> simp
  have htight : (!p.skipOn || decide (48 ≤ (p.length : Int) - p.skip - p.top)) = true ↔ skipTooTight p = false := by
    cases h : p.skipOn <;> simp [skipTooTight, h]
  simp only [Profile.sound, Bool.and_eq_true, decide_eq_true_eq, htear, htight, List.all_eq_true, Option.all_eq_true,
    and_assoc]

/-- The clamps of R125 to R127 and the check of R128 leave a profile in its ranges. -/
theorem heldProfile_sound {path : PaperPath} {skipOn bidir : Bool} {r : FormRequest}
    (hlen : r.bandData.length = 4 * r.bandCount.toNat) (hcount : r.bandCount.toNat ≤ 4)
    (htight : skipTooTight (heldProfile path skipOn bidir r) = false) :
    (heldProfile path skipOn bidir r).sound = true := by
  have hlength := heldLength_range r
  have hbands : (bandsOf r.bandData).length ≤ 4 := by rw [bandsOf_length _ _ hlen]; exact hcount
  refine (Profile.sound_iff _).2 ⟨hlength, ?_, Nat.min_le_left _ _, ?_, Nat.min_le_left _ _, ?_, ?_, ?_, htight⟩
  · dsimp only [heldProfile]; omega
  · dsimp only [heldProfile]; omega
  · simp [heldProfile, hbands, clampBand_sound (by omega : 0 < heldLength r)]
  · cases path <;> simp [heldProfile, heldTear]
  · intro t ht
    cases path
    · obtain rfl := Option.some.inj ht
      exact ⟨Nat.min_le_left _ _, Nat.min_le_left _ _⟩
    · simp [heldProfile, heldTear] at ht

/-- A sound profile stored in a slot keeps the forms sound; Y lies on the new form where the slot is the active one. -/
theorem formSound_set {s t : State} {slot : Nat} {p : Profile} (hs : formSound s = true) (hp : p.sound = true)
    (hslot : slot ≤ 15) (hforms : t.forms = { s.forms with slots := s.forms.slots.set slot (some p) })
    (hy : t.paper.y = if slot = s.forms.active then s.paper.y % p.length else s.paper.y) : formSound t = true := by
  obtain ⟨hlen, ⟨q, hq, hyq⟩, hall⟩ := (formSound_iff s).1 hs
  have hpos : 0 < p.length := by have := (Profile.sound_iff p).1 hp; omega
  rw [formSound_iff, hforms, hy]
  refine ⟨by simpa using hlen, ?_, fun x hx => ?_⟩
  · by_cases h : slot = s.forms.active
    · refine ⟨p, ?_, by simpa [h] using Nat.mod_lt _ hpos⟩
      simp only [← h, List.getElem?_set_self (by omega : slot < s.forms.slots.length)]
    · exact ⟨q, by simpa [List.getElem?_set_ne h] using hq, by simpa [h] using hyq⟩
  · rcases List.mem_or_eq_of_mem_set hx with hx | hx
    · exact hall x hx
    · rw [Option.some.inj hx]; exact hp

theorem storeForm_forms (slot : Nat) (p : Profile) (s : State) :
    (storeForm slot p s).forms = { s.forms with slots := s.forms.slots.set slot (some p) } := by
  unfold storeForm; dsimp only; split <;> simp

theorem storeForm_y (slot : Nat) (p : Profile) (s : State) :
    (storeForm slot p s).paper.y = if slot = s.forms.active then s.paper.y % p.length else s.paper.y := by
  unfold storeForm; dsimp only; split <;> simp

theorem keeps_reqDefineForm (r : FormRequest) : KeepsConfiguration (reqDefineForm r) := by
  intro s hs
  unfold reqDefineForm
  split
  · exact hs
  split
  · exact hs
  split
  · exact hs
  split
  · rename_i hlen hslot _ _ _ _ path skipOn bidir _ _ _
    split
    · exact hs
    dsimp only
    split
    · exact hs
    · rename_i hcount htight
      obtain ⟨hmech, hmap, hmask, hforms, hheat⟩ := hs
      have hp := heldProfile_sound (not_not.1 hlen) (Nat.le_of_not_lt hcount) (Bool.eq_false_iff.2 htight)
      exact ⟨(mechSound_congr (by simp)).trans hmech, (pinMapSound_congr (by simp)).trans hmap,
        (maskSound_congr (by simp)).trans hmask,
        formSound_set hforms hp (Nat.le_of_not_lt hslot) (storeForm_forms _ _ _) (storeForm_y _ _ _),
        (heatSound_congr (by simp)).trans hheat⟩
  · exact hs

/-- A held slot is made the active one: Y starts at 0. -/
theorem ConfigurationSound.selectSlot {s : State} (hs : ConfigurationSound s) {slot : Nat} {p : Profile}
    (h : s.forms.slots.getD slot none = some p) :
    ConfigurationSound (Machine.zeroY (s.setForms { s.forms with active := slot })) := by
  obtain ⟨hmech, hmap, hmask, hforms, hheat⟩ := hs
  obtain ⟨hlen, -, hall⟩ := (formSound_iff s).1 hforms
  have hslot : s.forms.slots[slot]? = some (some p) := by
    rw [List.getD_eq_getElem?_getD] at h
    rcases hx : s.forms.slots[slot]? with _ | x <;> simp_all
  have hpos : 0 < p.length := by
    have := (Profile.sound_iff p).1 (hall p (List.mem_of_getElem? hslot)); omega
  exact ⟨hmech, hmap, hmask, (formSound_iff _).2 ⟨hlen, ⟨p, hslot, hpos⟩, hall⟩, hheat⟩

theorem keeps_reqSelectForm (slot : Byte) : KeepsConfiguration (reqSelectForm slot) := by
  intro s hs
  unfold reqSelectForm
  split
  · exact hs
  split
  · exact hs
  split
  · exact hs
  · rename_i p hp
    exact (hs.selectSlot hp).of_settings (by simp)

theorem keeps_reqSetTof : KeepsConfiguration reqSetTof := by
  intro s hs
  unfold reqSetTof
  split
  · exact hs
  · exact hs.zeroY.of_settings (by simp)

/-! ### The other requests -/

theorem keeps_reqOpenPass (r : PassRequest) : KeepsConfiguration (reqOpenPass r) :=
  keeps_of_settings fun s => by simp [settings]

theorem keeps_reqImage (tag : Byte) (o : Half) (k : Byte) (data : List Byte) :
    KeepsConfiguration (reqImage tag o k data) :=
  keeps_of_settings fun s => by simp [settings]

theorem keeps_reqClosePass (tag : Byte) : KeepsConfiguration (reqClosePass tag) :=
  keeps_of_settings fun s => by simp [settings]

theorem keeps_reqQueueAdvance (tag : Byte) (n : Half) (flags : Byte) :
    KeepsConfiguration (reqQueueAdvance tag n flags) :=
  keeps_of_settings fun s => by simp [settings]

theorem keeps_reqCancelEntry (tag : Byte) : KeepsConfiguration (reqCancelEntry tag) :=
  keeps_of_settings fun s => by simp [settings]

theorem keeps_reqReadForm (slot : Byte) : KeepsConfiguration (reqReadForm slot) :=
  keeps_of_settings fun s => by simp [settings]

theorem keeps_reqIdentify : KeepsConfiguration reqIdentify := fun _ hs => hs
theorem keeps_reqGetStatus : KeepsConfiguration reqGetStatus := fun _ hs => hs
theorem keeps_reqReadEvents : KeepsConfiguration reqReadEvents := fun _ hs => hs
theorem keeps_reqReset : KeepsConfiguration reqReset := fun _ hs => hs
theorem keeps_reqPause : KeepsConfiguration reqPause := keeps_of_settings fun s => by simp [reqPause]
theorem keeps_reqResume : KeepsConfiguration reqResume := keeps_of_settings fun s => by simp [settings]
theorem keeps_reqAbort : KeepsConfiguration reqAbort := keeps_of_settings fun s => by simp [reqAbort]
theorem keeps_reqClearFault : KeepsConfiguration reqClearFault := keeps_of_settings fun s => by simp [settings]
theorem keeps_reqHome : KeepsConfiguration reqHome := keeps_of_settings fun s => by simp [settings]

/-! ### Taking a request -/

theorem keeps_noPayload {owner : State → Verdict} (h : KeepsConfiguration owner) (payload : List Byte) :
    KeepsConfiguration (noPayload owner payload) := by
  cases payload with
  | nil => exact h
  | cons => exact keeps_refuse _

theorem keeps_onePayload {owner : Byte → State → Verdict} (h : ∀ b, KeepsConfiguration (owner b))
    (payload : List Byte) : KeepsConfiguration (onePayload owner payload) := by
  unfold onePayload
  split
  · exact h _
  · exact keeps_refuse _

theorem keeps_readPayload {α : Type} {read : List Byte → Option α} {owner : α → State → Verdict}
    (h : ∀ r, KeepsConfiguration (owner r)) (payload : List Byte) :
    KeepsConfiguration (readPayload read owner payload) := by
  unfold readPayload
  split
  · exact h _
  · exact keeps_refuse _

theorem keeps_imagePayload (payload : List Byte) : KeepsConfiguration (imagePayload payload) := by
  unfold imagePayload
  split
  · exact keeps_reqImage _ _ _ _
  · exact keeps_refuse _

theorem keeps_advancePayload (payload : List Byte) : KeepsConfiguration (advancePayload payload) := by
  unfold advancePayload
  split
  · exact keeps_reqQueueAdvance _ _ _
  · exact keeps_refuse _

theorem keeps_ownerOf (kind : Byte) (payload : List Byte) : KeepsConfiguration (ownerOf kind payload) := by
  unfold ownerOf
  split
  · exact keeps_noPayload keeps_reqIdentify _
  · exact keeps_noPayload keeps_reqGetStatus _
  · exact keeps_noPayload keeps_reqReadEvents _
  · exact keeps_readPayload keeps_reqSetAttnMask _
  · exact keeps_noPayload keeps_reqReset _
  · exact keeps_readPayload keeps_reqSetMech _
  · exact keeps_reqSetPinMap _
  · exact keeps_readPayload keeps_reqDefineForm _
  · exact keeps_onePayload keeps_reqReadForm _
  · exact keeps_onePayload keeps_reqSelectForm _
  · exact keeps_noPayload keeps_reqSetTof _
  · exact keeps_readPayload keeps_reqOpenPass _
  · exact keeps_imagePayload _
  · exact keeps_onePayload keeps_reqClosePass _
  · exact keeps_advancePayload _
  · exact keeps_onePayload keeps_reqCancelEntry _
  · exact keeps_noPayload keeps_reqPause _
  · exact keeps_noPayload keeps_reqResume _
  · exact keeps_noPayload keeps_reqAbort _
  · exact keeps_noPayload keeps_reqClearFault _
  · exact keeps_noPayload keeps_reqHome _
  · exact keeps_refuse _

theorem ConfigurationSound.takeRequest {s : State} (hs : ConfigurationSound s) {kind : Byte} {owner : State → Verdict}
    (h : KeepsConfiguration owner) : ConfigurationSound (takeRequest kind owner s) := by
  unfold Machine.takeRequest
  split
  · exact hs
  split
  · exact hs
  split
  · exact hs.of_settings (settings_latch _ _)
  · exact (h s hs).of_settings (settings_queueReply _ _)

theorem ConfigurationSound.completeFrame {s : State} (hs : ConfigurationSound s) (b : Byte) :
    ConfigurationSound (completeFrame b s) := by
  unfold Machine.completeFrame
  dsimp only
  split
  · exact (hs.of_settings (settings_clearAssembler s)).takeRequest (keeps_ownerOf _ _)
  · exact hs.of_settings (settings_rejectFrame _ _)

theorem ConfigurationSound.frameComplete {s : State} (hs : ConfigurationSound s) (b : Byte) :
    ConfigurationSound (frameComplete b s) := by
  unfold Machine.frameComplete
  split
  · exact hs.completeFrame b
  · exact hs

theorem ConfigurationSound.byteReceived {s : State} (hs : ConfigurationSound s) (b : Byte) :
    ConfigurationSound (byteReceived b s) := by
  unfold Machine.byteReceived
  split
  · exact hs
  · split <;> split
    case h_4.isTrue => exact hs.frameComplete b
    all_goals exact hs.of_settings (by simp)

/-! ### Resets -/

theorem ConfigurationSound.resetNAssert {s : State} (hs : ConfigurationSound s) :
    ConfigurationSound (resetNAssert s) := by
  unfold Machine.resetNAssert
  split
  · exact hs
  · exact hs.warmValues.of_settings (settings_setPins _ _)

theorem ConfigurationSound.resetNRelease {s : State} (hs : ConfigurationSound s) (b a : Bool) :
    ConfigurationSound (resetNRelease b a s) := by
  unfold Machine.resetNRelease
  split
  · exact hs.of_settings (by simp)
  · exact hs

theorem ConfigurationSound.warmReset {s : State} (hs : ConfigurationSound s) (b a : Bool) :
    ConfigurationSound (warmReset b a s) := by
  unfold Machine.warmReset
  split
  · exact hs.warmValues.of_settings (settings_endReset _ _ _)
  · exact hs

theorem ConfigurationSound.replySent {s : State} (hs : ConfigurationSound s) : ConfigurationSound (replySent s) := by
  unfold Machine.replySent
  split
  · exact hs.warmReset _ _
  · exact hs.of_settings (settings_setLink _ _)

/-! ### Every command -/

theorem ConfigurationSound.exec {s : State} (hs : ConfigurationSound s) (c : Instr) :
    ∃ t, exec c s = .next t ∧ ConfigurationSound t := by
  cases c with
  | powerOnReset l => exact ⟨_, rfl, .powerOnReset l s⟩
  | resetNAssert => exact ⟨_, rfl, hs.resetNAssert⟩
  | resetNRelease b a => exact ⟨_, rfl, hs.resetNRelease b a⟩
  | warmReset b a => exact ⟨_, rfl, hs.warmReset b a⟩
  | replySent => exact ⟨_, rfl, hs.replySent⟩
  | frameComplete b => exact ⟨_, rfl, hs.frameComplete b⟩
  | byteReceived b => exact ⟨_, rfl, hs.byteReceived b⟩
  | identify => exact ⟨_, rfl, hs.takeRequest keeps_reqIdentify⟩
  | getStatus => exact ⟨_, rfl, hs.takeRequest keeps_reqGetStatus⟩
  | readEvents => exact ⟨_, rfl, hs.takeRequest keeps_reqReadEvents⟩
  | setAttnMask m => exact ⟨_, rfl, hs.takeRequest (keeps_reqSetAttnMask m)⟩
  | reset => exact ⟨_, rfl, hs.takeRequest keeps_reqReset⟩
  | setMech r => exact ⟨_, rfl, hs.takeRequest (keeps_reqSetMech r)⟩
  | setPinMap outs => exact ⟨_, rfl, hs.takeRequest (keeps_reqSetPinMap outs)⟩
  | defineForm r => exact ⟨_, rfl, hs.takeRequest (keeps_reqDefineForm r)⟩
  | readForm slot => exact ⟨_, rfl, hs.takeRequest (keeps_reqReadForm slot)⟩
  | selectForm slot => exact ⟨_, rfl, hs.takeRequest (keeps_reqSelectForm slot)⟩
  | setTof => exact ⟨_, rfl, hs.takeRequest keeps_reqSetTof⟩
  | openPass r => exact ⟨_, rfl, hs.takeRequest (keeps_reqOpenPass r)⟩
  | image tag o k data => exact ⟨_, rfl, hs.takeRequest (keeps_reqImage tag o k data)⟩
  | closePass tag => exact ⟨_, rfl, hs.takeRequest (keeps_reqClosePass tag)⟩
  | queueAdvance tag n flags => exact ⟨_, rfl, hs.takeRequest (keeps_reqQueueAdvance tag n flags)⟩
  | cancelEntry tag => exact ⟨_, rfl, hs.takeRequest (keeps_reqCancelEntry tag)⟩
  | pause => exact ⟨_, rfl, hs.takeRequest keeps_reqPause⟩
  | resume => exact ⟨_, rfl, hs.takeRequest keeps_reqResume⟩
  | abort => exact ⟨_, rfl, hs.takeRequest keeps_reqAbort⟩
  | clearFault => exact ⟨_, rfl, hs.takeRequest keeps_reqClearFault⟩
  | home => exact ⟨_, rfl, hs.takeRequest keeps_reqHome⟩
  | coolingTick => exact ⟨_, rfl, hs.coolingTick⟩
  | burstSlot => exact ⟨_, rfl, hs.burstSlot⟩
  | feedUnit => exact ⟨_, rfl, hs.feedUnit⟩
  | _ => exact ⟨_, rfl, hs.of_settings (by simp)⟩

/-- Settles O60: every command either leaves the settings as they are or sets them within their ranges. -/
theorem stepKeepsConfigurationSound : Obligations.StepKeepsConfigurationSound := by
  intro s t hmech hmap hmask hforms hheat hstep
  have hs : ConfigurationSound s := ⟨hmech, hmap, hmask, hforms, hheat⟩
  unfold step at hstep
  split at hstep
  · obtain rfl := Host.Outcome.next.inj hstep
    exact hs
  · rename_i c rest _
    obtain ⟨u, hu, hsound⟩ := (hs.of_settings (settings_setPending s rest)).exec c
    obtain rfl := Host.Outcome.next.inj (hu.symm.trans hstep)
    exact hsound

end Sys2Proof.Machine
end

section
/-! The values after a power-on reset, and the requests that replace the mechanical configuration and the pin map. -/

namespace Sys2Proof.Machine

/-! ## Power-on reset -/

theorem settleTear_of_quiet {s : State} (h : tearReady s = false) (ht : s.time.tearIdle = none) : settleTear s = s := by
  rw [settleTear_of_not h, ← ht]; rfl

/-- The default profile has tear-off disabled, so a reset that has just ended starts no tear timer. -/
theorem tearReady_of_default {s : State} (h : activeProfile s = Profile.default) : tearReady s = false := by
  simp [tearReady, h, tearIdleOf, Profile.default]

theorem settleTear_powerOn {s : State} (hf : s.forms = State.reset.forms) (ht : s.time = State.reset.time) :
    settleTear s = s :=
  settleTear_of_quiet (tearReady_of_default (by simp [activeProfile, hf, State.reset])) (by rw [ht]; rfl)

theorem readPaperSensor_of_seen {s : State} (h : s.pins.paperSeen = true) :
    readPaperSensor s = s.setPaper { s.paper with pe := none, state := .idle } := by simp [readPaperSensor, h]

theorem readPaperSensor_of_gone {s : State} (h : s.pins.paperSeen = false) (hpe : s.paper.pe = none) :
    readPaperSensor s = latch .paperEnd (s.setPaper { s.paper with pe := some 0, state := .out }) := by
  simp [readPaperSensor, h, hpe]

/-- Settles O3: beside the rate and the pins, only the reading of the paper-end sensor depends on the levels. -/
theorem powerOnResetValues : Obligations.PowerOnResetValues := by
  intro l s
  refine congrArg Host.Outcome.next ?_
  unfold powerOnReset endReset
  rw [settleTear_powerOn (by simp) (by simp)]
  obtain ⟨strapB, strapA, home, paper, cover, fault, encA, encB⟩ := l
  cases paper
  case true => rw [readPaperSensor_of_seen rfl]; rfl
  case false =>
    rw [readPaperSensor_of_gone rfl rfl, latch_eq]
    simp only [sampleStraps, rateOf, State.setEvents, State.setPaper, State.setLink, State.setPins, State.setPending]
    rfl

/-- Settles O54: nothing is queued, armed or in flight, and the settings are those of a power-on reset. -/
theorem resetIsSound : Obligations.ResetIsSound := by
  unfold Obligations.ResetIsSound
  obtain ⟨hmech, hmap, hmask, hforms, hheat⟩ := configurationSound_powerOn
  have hpool : poolSound State.reset = true := by decide +kernel
  refine ⟨rfl, rfl, rfl, rfl, rfl, hpool, rfl, hheat, rfl, rfl, rfl, hmech, hmap, hforms, hmask, rfl⟩

/-! ## SET_MECH and SET_PIN_MAP -/

theorem reqSetMech_of_busy {r : MechRequest} {s : State} (hlen : r.groupMap.length = 24) (h : configBusy s = true) :
    reqSetMech r s = refuse .busy s := by simp [reqSetMech, hlen, h]

theorem reqSetMech_of_misfit {r : MechRequest} {s : State} (hlen : r.groupMap.length = 24) (h : configBusy s = false)
    (hfit : mechInRange r = false) : reqSetMech r s = refuse .range s := by simp [reqSetMech, hlen, h, hfit]

theorem reqSetMech_of_fit {r : MechRequest} {s : State} (hlen : r.groupMap.length = 24) (h : configBusy s = false)
    (hfit : mechInRange r = true) : reqSetMech r s = accept (s.setMech (mechOf r)) := by
  simp [reqSetMech, hlen, h, hfit]

theorem reqSetPinMap_of_busy {outs : List Byte} {s : State} (hlen : outs.length = 24) (h : configBusy s = true) :
    reqSetPinMap outs s = refuse .busy s := by simp [reqSetPinMap, hlen, h]

theorem reqSetPinMap_of_bad {outs : List Byte} {s : State} (hlen : outs.length = 24) (h : configBusy s = false)
    (hmap : isPinMap (outs.map BitVec.toNat) = false) : reqSetPinMap outs s = refuse .badMap s := by
  simp [reqSetPinMap, hlen, h, hmap]

theorem reqSetPinMap_of_map {outs : List Byte} {s : State} (hlen : outs.length = 24) (h : configBusy s = false)
    (hmap : isPinMap (outs.map BitVec.toNat) = true) :
    reqSetPinMap outs s = accept (s.setDriver { s.driver with pinMap := outs.map BitVec.toNat }) := by
  simp [reqSetPinMap, hlen, h, hmap]

/-- Bytes are a permutation of 0..23 exactly when they are 24 in number, each below 24, and pairwise distinct. -/
theorem isPinMap_bytes {outs : List Byte} (hlen : outs.length = 24) :
    isPinMap (outs.map BitVec.toNat) = true ↔ (∀ x ∈ outs, x.toNat < 24) ∧ outs.Nodup := by
  have hinj : Function.Injective (BitVec.toNat : Byte → Nat) := fun _ _ h => BitVec.eq_of_toNat_eq h
  simp [isPinMap, hlen, List.nodup_map_iff hinj]

/-- Settles O15: the three tests of the two owners in plain words, and one equation for each of their answers. -/
theorem configurationRequests : Obligations.ConfigurationRequests := by
  intro r outs s hopen hgroups houts
  refine ⟨configBusy s = true, mechInRange r = true, isPinMap (outs.map BitVec.toNat) = true, configBusy_iff s,
    mechInRange_iff r, isPinMap_bytes houts, fun busy => ⟨?_, ?_⟩, fun free misfit => ?_, fun free fit => ?_,
    fun free bad => ?_, fun free map => ?_⟩
  all_goals refine congrArg Host.Outcome.next ((takeRequest_of_open hopen).trans ?_)
  · rw [reqSetMech_of_busy hgroups busy]; rfl
  · rw [reqSetPinMap_of_busy houts busy]; rfl
  · rw [reqSetMech_of_misfit hgroups (Bool.eq_false_iff.2 free) (Bool.eq_false_iff.2 misfit)]; rfl
  · rw [reqSetMech_of_fit hgroups (Bool.eq_false_iff.2 free) fit]; rfl
  · rw [reqSetPinMap_of_bad houts (Bool.eq_false_iff.2 free) (Bool.eq_false_iff.2 bad)]; rfl
  · rw [reqSetPinMap_of_map houts (Bool.eq_false_iff.2 free) map]; rfl

end Sys2Proof.Machine
end

section
/-! Outstanding dots, and the look-ahead plan of the next entry. -/

namespace Sys2Proof.Machine

/-! ## Outstanding dots -/

/-- Every image row belongs to one of the channels (spec/01 R2). -/
theorem rows_ne_zero_iff (x : Rows) : x ≠ 0#24 ↔ ∃ ch : Chan, x &&& ch.rows ≠ 0#24 := by
  constructor
  · intro hx
    by_contra hno
    push Not at hno
    have hsplit : x = (x &&& Chan.a.rows) ||| (x &&& Chan.b.rows) := by
      have hall : Chan.a.rows ||| Chan.b.rows = BitVec.allOnes 24 := by decide
      rw [← BitVec.and_or_distrib_left, hall, BitVec.and_allOnes]
    exact hx (by rw [hsplit, hno .a, hno .b]; rfl)
  · rintro ⟨ch, hch⟩ rfl
    exact hch BitVec.zero_and

theorem chanOutstanding_ne_zero_iff (pool : Pool) (p : Pass) (ch : Chan) (c : Nat) :
    chanOutstanding pool p ch c ≠ 0#24 ↔
      (p.start ≤ c ∧ c < p.start + p.span) ∧ outstanding pool p (c - p.start) &&& ch.rows ≠ 0#24 := by
  unfold chanOutstanding
  split <;> simp_all

/-- The entry has an outstanding dot exactly when a channel has an outstanding column. -/
theorem anyOutstanding_iff (pool : Pool) (p : Pass) :
    anyOutstanding pool p = true ↔ ∃ ch c, chanOutstanding pool p ch c ≠ 0#24 := by
  simp only [anyOutstanding, List.any_eq_true, List.mem_range, bne_iff_ne, chanOutstanding_ne_zero_iff]
  constructor
  · rintro ⟨k, hk, hne⟩
    obtain ⟨ch, hch⟩ := (rows_ne_zero_iff _).1 hne
    exact ⟨ch, p.start + k, ⟨by omega, by omega⟩, by simpa using hch⟩
  · rintro ⟨ch, c, ⟨hlow, hhigh⟩, hch⟩
    exact ⟨c - p.start, by omega, (rows_ne_zero_iff _).2 ⟨ch, hch⟩⟩

/-! ## The look-ahead plan -/

theorem maskPass_eq (prof : Profile) (pool : Pool) (y : Nat) (pe : Option Nat) (p : Pass) :
    maskPass prof pool y pe p = if p.suppressed = none then
        { p with
          suppressed := some (suppressedRows prof y pe)
          dotsSuppressed := dotsIn pool p (suppressedRows prof y pe) }
      else p := by
  unfold maskPass
  cases h : p.suppressed <;> simp

theorem Motion.left_eq (m : Motion) :
    m.left = m.distance - (if 0 < m.distance then (m.moved : Int) else -m.moved) := by
  unfold Motion.left; split <;> omega

theorem advanceLeft_of_motion {s : State} {m : Motion} {tag : Byte} (hm : s.paper.motion = some m)
    (hp : m.purpose = .entryAdvance tag) : advanceLeft s = some m.left := by simp [advanceLeft, hm, hp]

theorem approachOrder_of_there {n : Nat} {s : State} (h : s.carriage.pos = some n) : approachOrder n s = s := if_pos h

theorem approachOrder_of_elsewhere {n : Nat} {s : State} (h : s.carriage.pos ≠ some n) : approachOrder n s =
    startStall (s.setCarriage { s.carriage with state := .approach, drive := .on, target := some n }) := if_neg h

theorem lookAheadOpen_iff (s : State) : lookAheadOpen s = true ↔
    s.runner.lookAhead = none ∧ s.carriage.state = .idle ∧ runnerFree s = true ∧ paperInFlight s = true
      ∧ hmax s < 5120 := by
  simp only [lookAheadOpen, Bool.and_eq_true, decide_eq_true_eq, Option.isNone_iff_eq_none, beq_iff_eq, and_assoc]
  rfl

section
variable {s : State} {h e : Entry} {rest : List Entry} {p : Pass} {left : Int} {place : Nat}

/-- The look-ahead writes nothing when the skip check, the masks or the heat forbid it (spec/07 R150). -/
theorem lookAheadPlan_of_forbidden (hq : s.queue = h :: e :: rest) (hp : e.pass = some p)
    (hleft : advanceLeft s = some left)
    (hno : skipNeeded (activeProfile s) (predictedY (activeProfile s) s.paper.y left) = true
      ∨ anyOutstanding s.pool (lookAheadPass s left p) = false ∨ 5120 ≤ hmax s) : lookAheadPlan s = s := by
  unfold lookAheadPlan
  rw [hq]
  dsimp only
  rw [hp, hleft]
  cases s.carriage.pos with
  | none => rfl
  | some place =>
    refine if_neg ?_
    rintro ⟨-, -, hopen, hskip, hany⟩
    obtain ⟨-, -, -, -, hcool⟩ := (lookAheadOpen_iff s).1 hopen
    rcases hno with hno | hno | hno
    · simp [hskip] at hno
    · simp [hany] at hno
    · omega

/-- The look-ahead writes the masks and the direction to the next entry, holds the plan and orders its approach. -/
theorem lookAheadPlan_of_made {plan : Plan} (hq : s.queue = h :: e :: rest) (hp : e.pass = some p)
    (hleft : advanceLeft s = some left) (hpos : s.carriage.pos = some place) (hh : h.state = .advancing)
    (he : e.state = .ready) (hopen : lookAheadOpen s = true)
    (hskip : skipNeeded (activeProfile s) (predictedY (activeProfile s) s.paper.y left) = false)
    (hany : anyOutstanding s.pool (lookAheadPass s left p) = true)
    (hplan : planSweep s e.tag (lookAheadPass s left p) place = .made plan) :
    lookAheadPlan s = approachOrder plan.start.toNat
      ((s.setRunner { s.runner with lookAhead := some plan }).setQueue
        (h :: { e with pass := some { lookAheadPass s left p with dir := some plan.dir } } :: rest)) := by
  unfold lookAheadPlan
  rw [hq]
  dsimp only
  rw [hp, hleft, hpos]
  dsimp only
  rw [if_pos ⟨hh, he, hopen, hskip, hany⟩, hplan]

end

/-- Settles O53: the prediction of R19 is spelled, and each of the two answers is an equation for LOOK_AHEAD_PLAN. -/
theorem lookAheadPlansNextEntry : Obligations.LookAheadPlansNextEntry := by
  refine ⟨?_, anyOutstanding_iff⟩
  intro s h e rest p m tag place left hq hh he hp hm hpurpose hpaper hleft hcar hpos hnone hfree
  have hadv : advanceLeft s = some left := by rw [hleft, ← m.left_eq]; exact advanceLeft_of_motion hm hpurpose
  have hflight : paperInFlight s = true := (PaperState.inFlight_iff _).2 hpaper
  refine ⟨predictedY (activeProfile s) s.paper.y left, predictedPe s.paper.pe left, lookAheadPass s left p, rfl, rfl,
    maskPass_eq .., fun hno => congrArg Host.Outcome.next (lookAheadPlan_of_forbidden hq hp hadv hno), ?_⟩
  intro plan hskip hany hcool hplan
  have hopen : lookAheadOpen s = true := (lookAheadOpen_iff s).2 ⟨hnone, hcar, hfree, hflight, hcool⟩
  refine ⟨_, rfl, fun hthere => congrArg Host.Outcome.next ?_, fun helse => congrArg Host.Outcome.next ?_⟩
  all_goals rw [lookAheadPlan_of_made hq hp hadv hpos hh he hopen hskip hany hplan]
  · exact approachOrder_of_there (by simpa [hpos] using hthere.symm)
  · rw [approachOrder_of_elsewhere (by simpa [hpos] using Ne.symm helse)]; rfl

end Sys2Proof.Machine
end

section
/-! Plans: the columns a sweep holds, its firing lists and their order, its extent, the caps, and the direction. -/

namespace Sys2Proof.Machine

/-! ## The order of a sweep -/

/-- Position x is reached no later than y in a direction. -/
def before (dir : Dir) (x y : Int) : Prop := if dir = .fwd then x ≤ y else y ≤ x

@[simp] theorem before_fwd (x y : Int) : before .fwd x y ↔ x ≤ y := Iff.rfl

@[simp] theorem before_rev (x y : Int) : before .rev x y ↔ y ≤ x := Iff.rfl

theorem before_refl (dir : Dir) (x : Int) : before dir x x := by cases dir <;> simp

theorem before_trans {dir : Dir} {x y z : Int} (hxy : before dir x y) (hyz : before dir y z) : before dir x z := by
  cases dir <;> simp_all <;> omega

theorem before_antisymm {dir : Dir} {x y : Int} (hxy : before dir x y) (hyx : before dir y x) : x = y := by
  cases dir <;> simp_all <;> omega

/-- The other direction. -/
def opposite : Dir → Dir
  | .fwd => .rev
  | .rev => .fwd

theorem before_opposite (dir : Dir) (x y : Int) : before (opposite dir) x y ↔ before dir y x := by
  cases dir <;> simp [opposite]

/-! ### The first and the last firing of two lists -/

/-- The elements of a list come in the order of a sweep. -/
def InOrder (dir : Dir) (l : List Elem) : Prop := l.Pairwise fun x y => before dir x.pos y.pos

/-- The head of an ordered list comes before all of it. -/
theorem InOrder.before_of_head {dir : Dir} {l : List Elem} (hl : InOrder dir l) {a : Elem} (ha : l.head? = some a) :
    ∀ x ∈ l, before dir a.pos x.pos := by
  cases l with
  | nil => simp
  | cons b t =>
    obtain rfl := Option.some.inj ha
    rintro x (_ | ⟨_, hx⟩)
    · exact before_refl _ _
    · exact (List.pairwise_cons.1 hl).1 x hx

theorem joinPos_firstOf_iff (dir : Dir) (a b : Option Int) (f : Int) :
    joinPos (firstOf dir) a b = some f ↔ (a = some f ∨ b = some f)
      ∧ (∀ x, a = some x → before dir f x) ∧ ∀ x, b = some x → before dir f x := by
  rcases a with _ | a <;> rcases b with _ | b <;> cases dir <;> simp [joinPos, firstOf] <;> omega

theorem InOrder.head_iff {dir : Dir} {l : List Elem} (hl : InOrder dir l) (f : Int) :
    (∀ x, l.head?.map Elem.pos = some x → before dir f x) ↔ ∀ x ∈ l, before dir f x.pos := by
  constructor
  · intro h x hx
    obtain ⟨a, ha⟩ := Option.isSome_iff_exists.1 (List.isSome_head?.2 (List.ne_nil_of_mem hx))
    exact before_trans (h a.pos (by rw [ha]; rfl)) (hl.before_of_head ha x hx)
  · intro h x hx
    obtain ⟨a, ha, rfl⟩ := Option.map_eq_some_iff.1 hx
    exact h a (List.mem_of_head? ha)

/-- The first firing over two ordered lists is the position that one of them holds and none comes before. -/
theorem firstFiring_iff {dir : Dir} {a b : List Elem} (ha : InOrder dir a) (hb : InOrder dir b) (f : Int) :
    firstFiring dir a b = some f ↔ (∃ x, (x ∈ a ∨ x ∈ b) ∧ x.pos = f)
      ∧ (∀ x ∈ a, before dir f x.pos) ∧ ∀ x ∈ b, before dir f x.pos := by
  rw [firstFiring, joinPos_firstOf_iff, ha.head_iff, hb.head_iff]
  refine and_congr_left fun ⟨hfa, hfb⟩ => ⟨?_, ?_⟩
  · rintro (h | h) <;> obtain ⟨x, hx, rfl⟩ := Option.map_eq_some_iff.1 h
    · exact ⟨x, .inl (List.mem_of_head? hx), rfl⟩
    · exact ⟨x, .inr (List.mem_of_head? hx), rfl⟩
  · have head_of_first : ∀ l, InOrder dir l → (∀ y ∈ l, before dir f y.pos) → ∀ x ∈ l, x.pos = f →
        l.head?.map Elem.pos = some f := by
      rintro l hl hf x hx rfl
      obtain ⟨h, hh⟩ := Option.isSome_iff_exists.1 (List.isSome_head?.2 (List.ne_nil_of_mem hx))
      rw [hh, Option.map_some, before_antisymm (hl.before_of_head hh x hx) (hf h (List.mem_of_head? hh))]
    rintro ⟨x, hx | hx, hpos⟩
    · exact .inl (head_of_first a ha hfa x hx hpos)
    · exact .inr (head_of_first b hb hfb x hx hpos)

theorem firstFiring_eq_none {dir : Dir} {a b : List Elem} : firstFiring dir a b = none ↔ a = [] ∧ b = [] := by
  cases a <;> cases b <;> simp [firstFiring, joinPos]

/-- The last firing is the first one of the same lists read backwards. -/
theorem lastFiring_eq (dir : Dir) (a b : List Elem) :
    lastFiring dir a b = firstFiring (opposite dir) a.reverse b.reverse := by
  cases dir <;> simp [lastFiring, firstFiring, opposite] <;> rfl

theorem InOrder.reverse {dir : Dir} {l : List Elem} (hl : InOrder dir l) : InOrder (opposite dir) l.reverse := by
  simpa [InOrder, List.pairwise_reverse, before_opposite] using hl

theorem lastFiring_iff {dir : Dir} {a b : List Elem} (ha : InOrder dir a) (hb : InOrder dir b) (f : Int) :
    lastFiring dir a b = some f ↔ (∃ x, (x ∈ a ∨ x ∈ b) ∧ x.pos = f)
      ∧ (∀ x ∈ a, before dir x.pos f) ∧ ∀ x ∈ b, before dir x.pos f := by
  rw [lastFiring_eq, firstFiring_iff ha.reverse hb.reverse]
  simp [before_opposite]

theorem lastFiring_eq_none {dir : Dir} {a b : List Elem} : lastFiring dir a b = none ↔ a = [] ∧ b = [] := by
  simp [lastFiring_eq, firstFiring_eq_none]

/-! ## The due columns -/

/-- Column c is to be fired by a sweep of the channel in this direction: it is outstanding, and lies at or beyond the
resume column (spec/01 R7). -/
def Due (pool : Pool) (p : Pass) (ch : Chan) (dir : Dir) (c : Nat) : Prop :=
  p.start ≤ c ∧ c < p.start + p.span ∧ chanOutstanding pool p ch c ≠ 0#24 ∧ atOrBeyond (p.resume ch) dir c = true

theorem mem_sweepColumns {pool : Pool} {p : Pass} {ch : Chan} {dir : Dir} {c : Nat} :
    c ∈ sweepColumns pool p ch dir ↔ Due pool p ch dir c := by
  simp only [sweepColumns, outstandingColumns, List.mem_filter, List.mem_map, List.mem_range, bne_iff_ne, Due,
    and_assoc]
  constructor
  · rintro ⟨⟨k, hk, rfl⟩, hne, hbeyond⟩
    exact ⟨by omega, by omega, hne, hbeyond⟩
  · rintro ⟨hlow, hhigh, hne, hbeyond⟩
    exact ⟨⟨c - p.start, by omega, by omega⟩, hne, hbeyond⟩

theorem sweepColumns_rising (pool : Pool) (p : Pass) (ch : Chan) (dir : Dir) :
    (sweepColumns pool p ch dir).Pairwise (· < ·) := by
  refine List.Pairwise.filter _ (List.Pairwise.filter _ ?_)
  exact List.pairwise_map.2 (List.pairwise_lt_range.imp fun h => by omega)

theorem hasWork_iff (pool : Pool) (p : Pass) :
    hasWork pool p = true ↔ ∃ ch c, Due pool p ch (p.dir.getD .fwd) c := by
  have hcols : ∀ ch, (sweepColumns pool p ch (p.dir.getD .fwd)).isEmpty = false
      ↔ ∃ c, Due pool p ch (p.dir.getD .fwd) c := fun ch => by
    simp only [← mem_sweepColumns, List.isEmpty_eq_false_iff_exists_mem]
  simp only [hasWork, Bool.or_eq_true, Bool.not_eq_true', hcols]
  constructor
  · rintro (⟨c, hc⟩ | ⟨c, hc⟩)
    · exact ⟨.a, c, hc⟩
    · exact ⟨.b, c, hc⟩
  · rintro ⟨ch, c, hc⟩
    cases ch
    · exact .inl ⟨c, hc⟩
    · exact .inr ⟨c, hc⟩

/-! ### Firing positions -/

theorem firingPos_eq (m : Mech) (d : Density) (ch : Chan) (dir : Dir) (g c : Nat) :
    firingPos m d ch dir g c = m.origin + c * d.pitch - (if ch = .a then 0 else 36)
      + (if dir = .fwd then -(m.leads.getD g 0 : Int) else m.leads.getD g 0) := by
  cases ch <;> cases dir <;> simp [firingPos, dotTarget, leadOf, Config.stagger] <;> omega

/-- Columns come rightward at rising firing positions. -/
theorem firingPos_mono (m : Mech) (d : Density) (ch : Chan) (dir : Dir) (g : Nat) {c c' : Nat} (h : c ≤ c') :
    firingPos m d ch dir g c ≤ firingPos m d ch dir g c' := by
  have hmul : (c : Int) * d.pitch ≤ c' * d.pitch := by exact_mod_cast Nat.mul_le_mul_right _ h
  rw [firingPos_eq, firingPos_eq]; omega

theorem mem_firingList {m : Mech} {pool : Pool} {p : Pass} {ch : Chan} {dir : Dir} {g : Nat} {x : Elem} :
    x ∈ firingList m pool p ch dir g
      ↔ Due pool p ch dir x.column ∧ x.pos = firingPos m p.density ch dir g x.column := by
  have hup : x ∈ (sweepColumns pool p ch dir).map
      (fun c => ({ column := c, pos := firingPos m p.density ch dir g c } : Elem))
      ↔ Due pool p ch dir x.column ∧ x.pos = firingPos m p.density ch dir g x.column := by
    rw [List.mem_map]
    constructor
    · rintro ⟨c, hc, rfl⟩
      exact ⟨mem_sweepColumns.1 hc, rfl⟩
    · rintro ⟨hc, hpos⟩
      exact ⟨x.column, mem_sweepColumns.2 hc, by rw [← hpos]⟩
  cases dir
  · exact hup
  · exact List.mem_reverse.trans hup

theorem firingList_columns (m : Mech) (pool : Pool) (p : Pass) (ch : Chan) (dir : Dir) (g : Nat) :
    (firingList m pool p ch dir g).Pairwise fun x y => if dir = .fwd then x.column < y.column
      else y.column < x.column := by
  have hup : ((sweepColumns pool p ch dir).map
      (fun c => ({ column := c, pos := firingPos m p.density ch dir g c } : Elem))).Pairwise
        fun x y => x.column < y.column := List.pairwise_map.2 (sweepColumns_rising pool p ch dir)
  cases dir
  · exact hup
  · exact List.pairwise_reverse.2 hup

theorem firingList_inOrder (m : Mech) (pool : Pool) (p : Pass) (ch : Chan) (dir : Dir) (g : Nat) :
    InOrder dir (firingList m pool p ch dir g) := by
  refine (firingList_columns m pool p ch dir g).imp_of_mem fun {x y} hx hy hxy => ?_
  obtain ⟨-, hx⟩ := mem_firingList.1 hx
  obtain ⟨-, hy⟩ := mem_firingList.1 hy
  rw [hx, hy]
  cases dir
  · exact firingPos_mono m p.density ch .fwd g (Nat.le_of_lt hxy)
  · exact firingPos_mono m p.density ch .rev g (Nat.le_of_lt hxy)

/-! ## The extent of a sweep (spec/01 R8) -/

section
variable {m : Mech} {pool : Pool} {p : Pass} {dir : Dir} {g : Nat}

/-- The first firing position of a sweep over both channels. -/
def FirstAt (m : Mech) (pool : Pool) (p : Pass) (dir : Dir) (g : Nat) (f : Int) : Prop :=
  (∃ ch c, Due pool p ch dir c ∧ f = firingPos m p.density ch dir g c)
    ∧ ∀ ch c, Due pool p ch dir c → before dir f (firingPos m p.density ch dir g c)

/-- The last firing position of a sweep over both channels. -/
def LastAt (m : Mech) (pool : Pool) (p : Pass) (dir : Dir) (g : Nat) (l : Int) : Prop :=
  (∃ ch c, Due pool p ch dir c ∧ l = firingPos m p.density ch dir g c)
    ∧ ∀ ch c, Due pool p ch dir c → before dir (firingPos m p.density ch dir g c) l

/-- A statement about the elements of both firing lists is one about the due columns of both channels. -/
theorem forall_firing_iff (P : Int → Prop) :
    ((∀ x ∈ firingList m pool p .a dir g, P x.pos) ∧ ∀ x ∈ firingList m pool p .b dir g, P x.pos)
      ↔ ∀ ch c, Due pool p ch dir c → P (firingPos m p.density ch dir g c) := by
  have hlist : ∀ ch, (∀ x ∈ firingList m pool p ch dir g, P x.pos)
      ↔ ∀ c, Due pool p ch dir c → P (firingPos m p.density ch dir g c) := fun ch => by
    constructor
    · exact fun h c hc => h { column := c, pos := firingPos m p.density ch dir g c } (mem_firingList.2 ⟨hc, rfl⟩)
    · intro h x hx
      obtain ⟨hc, hpos⟩ := mem_firingList.1 hx
      exact hpos ▸ h x.column hc
  rw [hlist, hlist]
  constructor
  · rintro ⟨ha, hb⟩ (_ | _)
    · exact ha
    · exact hb
  · exact fun h => ⟨h .a, h .b⟩

theorem exists_firing_iff (f : Int) :
    (∃ x, (x ∈ firingList m pool p .a dir g ∨ x ∈ firingList m pool p .b dir g) ∧ x.pos = f)
      ↔ ∃ ch c, Due pool p ch dir c ∧ f = firingPos m p.density ch dir g c := by
  constructor
  · rintro ⟨x, hx | hx, rfl⟩ <;> obtain ⟨hc, hpos⟩ := mem_firingList.1 hx <;> exact ⟨_, _, hc, hpos⟩
  · rintro ⟨ch, c, hc, rfl⟩
    refine ⟨{ column := c, pos := firingPos m p.density ch dir g c }, ?_, rfl⟩
    cases ch
    · exact .inl (mem_firingList.2 ⟨hc, rfl⟩)
    · exact .inr (mem_firingList.2 ⟨hc, rfl⟩)

theorem firstFiring_listsAt (f : Int) :
    firstFiring dir (listsAt m pool p dir g).1 (listsAt m pool p dir g).2 = some f ↔ FirstAt m pool p dir g f := by
  rw [listsAt, firstFiring_iff (firingList_inOrder ..) (firingList_inOrder ..)]
  exact and_congr (exists_firing_iff f) (forall_firing_iff (before dir f))

theorem lastFiring_listsAt (l : Int) :
    lastFiring dir (listsAt m pool p dir g).1 (listsAt m pool p dir g).2 = some l ↔ LastAt m pool p dir g l := by
  rw [listsAt, lastFiring_iff (firingList_inOrder ..) (firingList_inOrder ..)]
  exact and_congr (exists_firing_iff l) (forall_firing_iff (before dir · l))

theorem sweepStart_iff (x : Int) :
    sweepStart m pool p dir g = some x ↔ ∃ f, FirstAt m pool p dir g f ∧ startPos dir g f = x := by
  simp only [sweepStart, Option.map_eq_some_iff, firstFiring_listsAt]

theorem sweepStop_iff (x : Int) :
    sweepStop m pool p dir g = some x ↔ ∃ l, LastAt m pool p dir g l ∧ endPos dir g l = x := by
  simp only [sweepStop, Option.map_eq_some_iff, lastFiring_listsAt]

theorem FirstAt.unique {f f' : Int} (h : FirstAt m pool p dir g f) (h' : FirstAt m pool p dir g f') : f = f' :=
  Option.some.inj (((firstFiring_listsAt f).2 h).symm.trans ((firstFiring_listsAt f').2 h'))

theorem LastAt.unique {l l' : Int} (h : LastAt m pool p dir g l) (h' : LastAt m pool p dir g l') : l = l' :=
  Option.some.inj (((lastFiring_listsAt l).2 h).symm.trans ((lastFiring_listsAt l').2 h'))

theorem FirstAt.before_last {f l : Int} (hf : FirstAt m pool p dir g f) (hl : LastAt m pool p dir g l) :
    before dir f l := by
  obtain ⟨⟨ch, c, hc, rfl⟩, -⟩ := hl
  exact hf.2 ch c hc

theorem firingList_ne_nil {ch : Chan} : firingList m pool p ch dir g ≠ [] ↔ ∃ c, Due pool p ch dir c := by
  constructor
  · intro h
    obtain ⟨x, hx⟩ := List.exists_mem_of_ne_nil _ h
    exact ⟨x.column, (mem_firingList.1 hx).1⟩
  · rintro ⟨c, hc⟩
    exact List.ne_nil_of_mem
      (mem_firingList.2 ⟨hc, rfl⟩ : { column := c, pos := firingPos m p.density ch dir g c } ∈ _)

/-- A sweep with something to fire has a list that is not empty. -/
theorem firingLists_ne_nil (h : ∃ ch c, Due pool p ch dir c) :
    firingList m pool p .a dir g ≠ [] ∨ firingList m pool p .b dir g ≠ [] := by
  obtain ⟨ch, c, hc⟩ := h
  cases ch
  · exact .inl (firingList_ne_nil.2 ⟨c, hc⟩)
  · exact .inr (firingList_ne_nil.2 ⟨c, hc⟩)

theorem exists_firstAt (h : ∃ ch c, Due pool p ch dir c) : ∃ f, FirstAt m pool p dir g f := by
  have hne : firstFiring dir (listsAt m pool p dir g).1 (listsAt m pool p dir g).2 ≠ none := fun hnone => by
    obtain ⟨ha, hb⟩ := firstFiring_eq_none.1 hnone
    exact (firingLists_ne_nil h).elim (· ha) (· hb)
  obtain ⟨f, hf⟩ := Option.ne_none_iff_exists'.1 hne
  exact ⟨f, (firstFiring_listsAt f).1 hf⟩

theorem exists_lastAt (h : ∃ ch c, Due pool p ch dir c) : ∃ l, LastAt m pool p dir g l := by
  have hne : lastFiring dir (listsAt m pool p dir g).1 (listsAt m pool p dir g).2 ≠ none := fun hnone => by
    obtain ⟨ha, hb⟩ := lastFiring_eq_none.1 hnone
    exact (firingLists_ne_nil h).elim (· ha) (· hb)
  obtain ⟨l, hl⟩ := Option.ne_none_iff_exists'.1 hne
  exact ⟨l, (lastFiring_listsAt l).1 hl⟩

/-! ### The travel -/

theorem inTravel_iff (x : Int) : inTravel x = true ↔ 0 ≤ x ∧ x ≤ 21599 := by
  simp only [inTravel, Bool.and_eq_true, decide_eq_true_eq]; rfl

theorem extentFits_iff : extentFits m pool p dir g = true ↔
    (∀ x, sweepStart m pool p dir g = some x → inTravel x = true)
      ∧ ∀ x, sweepStop m pool p dir g = some x → inTravel x = true := by
  simp only [extentFits, Bool.and_eq_true, Option.all_eq_true]

/-- The extent fits when its two outer ends lie within the travel. -/
theorem extentFits_of_ends {f l : Int} (hf : FirstAt m pool p dir g f) (hl : LastAt m pool p dir g l)
    (h : if dir = .fwd then 0 ≤ f - runUpOf g ∧ l + runUpOf g ≤ 21599
      else 0 ≤ l - runUpOf g ∧ f + runUpOf g ≤ 21599) :
    extentFits m pool p dir g = true := by
  have hfl := hf.before_last hl
  refine extentFits_iff.2 ⟨fun x hx => ?_, fun x hx => ?_⟩
  · obtain ⟨f', hf', rfl⟩ := (sweepStart_iff x).1 hx
    rw [inTravel_iff, ← hf.unique hf']
    cases dir <;> simp_all [startPos] <;> omega
  · obtain ⟨l', hl', rfl⟩ := (sweepStop_iff x).1 hx
    rw [inTravel_iff, ← hl.unique hl']
    cases dir <;> simp_all [endPos] <;> omega

end

theorem mechSound_origin {s : State} (h : mechSound s = true) : 360 ≤ s.mech.origin ∧ s.mech.origin ≤ 1500 := by
  obtain ⟨horigin, -⟩ := (mechSound_iff s).1 h
  exact horigin

theorem mechSound_lead {s : State} (h : mechSound s = true) (g : Nat) : leadOf s.mech g ≤ 120 := by
  obtain ⟨-, -, hleads, -⟩ := (mechSound_iff s).1 h
  rw [leadOf, List.getD_eq_getElem?_getD]
  rcases hg : s.mech.leads[g]? with _ | l
  · exact Nat.zero_le _
  · exact hleads l (List.mem_of_getElem? hg)

theorem passSound_limit {p : Pass} (h : passSound p = true) : p.start + p.span ≤ p.density.limit := by
  simp only [passSound, Bool.and_eq_true, decide_eq_true_eq] at h; exact h.2

theorem column_offset_le {d : Density} {c : Nat} (h : c < d.limit) : c * d.pitch ≤ 19578 := by
  cases d <;> simp only [Density.limit, Density.pitch] at * <;> omega

/-- The firing positions of a sound pass on a sound configuration. -/
theorem firingPos_range {s : State} {p : Pass} {ch : Chan} {dir : Dir} {c : Nat} (hm : mechSound s = true)
    (hp : passSound p = true) (hc : Due s.pool p ch dir c) (g : Nat) :
    204 ≤ firingPos s.mech p.density ch dir g c ∧ firingPos s.mech p.density ch dir g c ≤ 21198 := by
  obtain ⟨hlow, hhigh⟩ := mechSound_origin hm
  have hlead : s.mech.leads.getD g 0 ≤ 120 := mechSound_lead hm g
  have hcol : c * p.density.pitch ≤ 19578 :=
    column_offset_le (Nat.lt_of_lt_of_le hc.2.1 (passSound_limit hp))
  have hcol' : ((c : Int) * p.density.pitch) = ((c * p.density.pitch : Nat) : Int) := by push_cast; rfl
  rw [firingPos_eq, hcol']
  constructor <;> split <;> split <;> omega

/-- At grade 0 every sweep of a sound pass lies within the travel. -/
theorem extentFits_zero {s : State} {p : Pass} (hm : mechSound s = true) (hp : passSound p = true) (dir : Dir) :
    extentFits s.mech s.pool p dir 0 = true := by
  refine extentFits_iff.2 ⟨fun x hx => ?_, fun x hx => ?_⟩
  · obtain ⟨_, ⟨⟨ch, c, hc, rfl⟩, -⟩, rfl⟩ := (sweepStart_iff x).1 hx
    have := firingPos_range hm hp hc 0
    rw [inTravel_iff]
    cases dir <;> simp only [startPos, runUpOf] <;> omega
  · obtain ⟨_, ⟨⟨ch, c, hc, rfl⟩, -⟩, rfl⟩ := (sweepStop_iff x).1 hx
    have := firingPos_range hm hp hc 0
    rw [inTravel_iff]
    cases dir <;> simp only [endPos, runUpOf] <;> omega

/-! ### The planned grade (spec/01 R14) -/

theorem fitGrade_le (m : Mech) (pool : Pool) (p : Pass) (dir : Dir) (cap : Nat) :
    fitGrade m pool p dir cap ≤ cap := by
  induction cap with
  | zero => exact Nat.le_refl 0
  | succ g ih => unfold fitGrade; split <;> omega

theorem extentFits_fitGrade {m : Mech} {pool : Pool} {p : Pass} {dir : Dir}
    (hzero : extentFits m pool p dir 0 = true) (cap : Nat) :
    extentFits m pool p dir (fitGrade m pool p dir cap) = true := by
  induction cap with
  | zero => exact hzero
  | succ g ih =>
    unfold fitGrade
    split
    · assumption
    · exact ih

theorem not_extentFits_above {m : Mech} {pool : Pool} {p : Pass} {dir : Dir} {cap g : Nat}
    (hlow : fitGrade m pool p dir cap < g) (hhigh : g ≤ cap) : extentFits m pool p dir g = false := by
  induction cap with
  | zero => omega
  | succ k ih =>
    unfold fitGrade at hlow
    split at hlow
    · omega
    · rename_i hno
      rcases Nat.lt_or_eq_of_le hhigh with hlt | rfl
      · exact ih hlow (by omega)
      · exact Bool.eq_false_iff.2 hno

/-! ## The caps (spec/01 R9 to R11, spec/04 R90) -/

theorem heatCap_eq (h : Nat) : heatCap h = if h < 5120 then
    some (if h < 2048 then 3 else if h < 3072 then 2 else if h < 4096 then 1 else 0) else none := by
  unfold heatCap Config.heatNoPlan
  grind

theorem and_ne_zero_iff {n : Nat} (x y : BitVec n) :
    x &&& y ≠ 0#n ↔ ∃ r, x.getLsbD r = true ∧ y.getLsbD r = true := by
  constructor
  · intro hne
    by_contra hno
    push Not at hno
    refine hne (BitVec.eq_of_getLsbD_eq fun r _ => ?_)
    rw [BitVec.getLsbD_and, BitVec.getLsbD_zero]
    cases hx : x.getLsbD r
    · rfl
    · simpa using hno r hx
  · rintro ⟨r, hx, hy⟩ hzero
    have : (x &&& y).getLsbD r = false := by rw [hzero, BitVec.getLsbD_zero]
    simp [hx, hy] at this

theorem adjacentPair_iff (pool : Pool) (p : Pass) (ch : Chan) (dir : Dir) : adjacentPair pool p ch dir = true ↔
    ∃ c r, Due pool p ch dir c ∧ Due pool p ch dir (c + 1) ∧ (chanOutstanding pool p ch c).getLsbD r = true
      ∧ (chanOutstanding pool p ch (c + 1)).getLsbD r = true := by
  simp only [adjacentPair, List.any_eq_true, Bool.and_eq_true, List.contains_iff_mem, mem_sweepColumns, bne_iff_ne,
    and_ne_zero_iff]
  constructor
  · rintro ⟨c, hc, hnext, r, hrow, hrow'⟩
    exact ⟨c, r, hc, hnext, hrow, hrow'⟩
  · rintro ⟨c, r, hc, hnext, hrow, hrow'⟩
    exact ⟨c, hc, hnext, r, hrow, hrow'⟩

/-- Some row of a channel is outstanding in two adjacent columns of its list, at D240. -/
def Adjacent (pool : Pool) (p : Pass) (dir : Dir) : Prop :=
  p.density = .d240 ∧ ∃ ch c r, Due pool p ch dir c ∧ Due pool p ch dir (c + 1)
    ∧ (chanOutstanding pool p ch c).getLsbD r = true ∧ (chanOutstanding pool p ch (c + 1)).getLsbD r = true

theorem adjacencyCap_cases (pool : Pool) (p : Pass) (dir : Dir) :
    (adjacencyCap pool p dir = 1 ∧ Adjacent pool p dir) ∨ (adjacencyCap pool p dir = 3 ∧ ¬Adjacent pool p dir) := by
  have hiff : (p.density = .d240 ∧ (adjacentPair pool p .a dir = true ∨ adjacentPair pool p .b dir = true))
      ↔ Adjacent pool p dir := by
    rw [adjacentPair_iff, adjacentPair_iff]
    refine and_congr_right fun _ => ⟨?_, ?_⟩
    · rintro (h | h)
      · exact ⟨.a, h⟩
      · exact ⟨.b, h⟩
    · rintro ⟨_ | _, h⟩
      · exact .inl h
      · exact .inr h
  unfold adjacencyCap
  split
  · exact .inl ⟨rfl, hiff.1 ‹_›⟩
  · exact .inr ⟨rfl, mt hiff.2 ‹_›⟩

theorem capGrade_eq (m : Mech) (prof : Profile) (pool : Pool) (p : Pass) (dir : Dir) (h : Nat) :
    capGrade m prof pool p dir h = if h < 5120 then
      some (min (min (min 3 (25 * p.density.pitch / (36 * m.phaseCount) - 1)) (adjacencyCap pool p dir))
        (min prof.cap (if h < 2048 then 3 else if h < 3072 then 2 else if h < 4096 then 1 else 0)))
    else none := by
  rw [capGrade, heatCap_eq, phaseCap]
  split <;> rfl

/-! ## Planning (spec/01 R12, R15, R16) -/

theorem atOrBeyond_iff (r : Option Resume) (dir : Dir) (c : Nat) : atOrBeyond r dir c = true ↔
    match r, dir with
    | none, _ => True
    | some .done, _ => False
    | some (.column k), .fwd => k ≤ c
    | some (.column k), .rev => c ≤ k := by
  rcases r with _ | k | _ <;> cases dir <;> simp [atOrBeyond]

/-- The test at or beyond the resume column in the direction an entry holds; one never planned has no resume column. -/
theorem atOrBeyond_held_iff (r : Option Resume) (dir : Option Dir) (c : Nat) : dir ≠ none ∨ r = none →
    (atOrBeyond r (dir.getD .fwd) c = true ↔
    match r, dir with
    | none, _ => True
    | some .done, _ => False
    | some (.column k), some .fwd => k ≤ c
    | some (.column k), some .rev => c ≤ k
    | some (.column _), none => False) := by
  intro h
  cases dir with
  | none =>
    obtain rfl : r = none := h.resolve_left (not_not.2 rfl)
    simp [atOrBeyond]
  | some d => rw [Option.getD_some, atOrBeyond_iff]; rcases r with _ | k | _ <;> cases d <;> rfl

/-- The entry was never planned, or is planned again in its direction. -/
def Plannable (p : Pass) : Prop := p.dir ≠ none ∨ (p.resumeA = none ∧ p.resumeB = none)

theorem Plannable.resume {p : Pass} (h : Plannable p) (ch : Chan) : p.dir ≠ none ∨ p.resume ch = none := by
  rcases h with h | ⟨ha, hb⟩
  · exact .inl h
  · cases ch
    · exact .inr ha
    · exact .inr hb

/-- The direction a sweep is planned in: the one the entry holds, else the one R12 chooses. -/
def sweepDir (s : State) (p : Pass) (place cap : Nat) : Dir :=
  p.dir.getD (chooseDir s.mech (activeProfile s) s.pool p cap place)

/-- Before a first plan the due columns do not depend on the direction. -/
theorem Plannable.due_sweepDir {s : State} {p : Pass} (h : Plannable p) (ch : Chan) (place cap c : Nat) :
    Due s.pool p ch (sweepDir s p place cap) c ↔ Due s.pool p ch (p.dir.getD .fwd) c := by
  rcases hd : p.dir with _ | d
  · have hr : p.resume ch = none := (h.resume ch).resolve_left (not_not.2 hd)
    simp [Due, hr, atOrBeyond]
  · simp [sweepDir, hd]

theorem Plannable.adjacencyCap {s : State} {p : Pass} (h : Plannable p) (place cap : Nat) :
    adjacencyCap s.pool p (p.dir.getD .fwd) = adjacencyCap s.pool p (sweepDir s p place cap) := by
  have hiff : Adjacent s.pool p (sweepDir s p place cap) ↔ Adjacent s.pool p (p.dir.getD .fwd) := by
    simp only [Adjacent, h.due_sweepDir]
  rcases adjacencyCap_cases s.pool p (p.dir.getD .fwd) with ⟨h1, ha⟩ | ⟨h1, ha⟩ <;>
    rcases adjacencyCap_cases s.pool p (sweepDir s p place cap) with ⟨h2, hb⟩ | ⟨h2, hb⟩ <;>
    simp_all

section
variable {s : State} {tag : Byte} {p : Pass} {place : Nat}

/-- The cap grade of a sweep at the Hmax and the configuration held. -/
def capOf (s : State) (p : Pass) : Nat :=
  min (min (min 3 (25 * p.density.pitch / (36 * s.mech.phaseCount) - 1)) (adjacencyCap s.pool p (p.dir.getD .fwd)))
    (min (activeProfile s).cap
      (if hmax s < 2048 then 3 else if hmax s < 3072 then 2 else if hmax s < 4096 then 1 else 0))

/-- The plan that planning makes. -/
def madeOf (s : State) (tag : Byte) (p : Pass) (place : Nat) : Plan :=
  planAt s.mech s.pool tag p (sweepDir s p place (capOf s p))
    (fitGrade s.mech s.pool p (sweepDir s p place (capOf s p)) (capOf s p))

/-- What planning answers, by the work left and the head's heat. -/
theorem planSweep_eq : planSweep s tag p place =
    if hasWork s.pool p = true then if hmax s < 5120 then .made (madeOf s tag p place) else .tooHot else .noColumn := by
  unfold planSweep
  rw [capGrade_eq]
  by_cases hw : hasWork s.pool p = true
  · by_cases hh : hmax s < 5120
    · simp only [hw, hh]; rfl
    · simp [hw, hh]
  · simp [hw]

theorem planSweep_noColumn_iff : planSweep s tag p place = .noColumn ↔ ¬hasWork s.pool p = true := by
  rw [planSweep_eq]; split
  · split <;> simp_all
  · simp_all

theorem planSweep_tooHot_iff : planSweep s tag p place = .tooHot ↔ hasWork s.pool p = true ∧ 5120 ≤ hmax s := by
  rw [planSweep_eq]; split
  · split <;> simp_all
  · simp_all

theorem planSweep_made_iff {plan : Plan} : planSweep s tag p place = .made plan ↔
    (hasWork s.pool p = true ∧ hmax s < 5120) ∧ plan = madeOf s tag p place := by
  rw [planSweep_eq]; split
  · split
    · exact ⟨fun h => ⟨⟨‹_›, ‹_›⟩, (Planned.made.inj h).symm⟩, fun ⟨_, h⟩ => congrArg _ h.symm⟩
    · simp_all
  · simp_all

/-! ### What a plan holds -/

theorem runUpOf_eq (g : Nat) : runUpOf g = [120, 240, 480, 720].getD g 720 := by
  rcases g with _ | _ | _ | _ | g <;> rfl

theorem capOf_le : capOf s p ≤ 3 ∧ capOf s p ≤ 25 * p.density.pitch / (36 * s.mech.phaseCount) - 1
    ∧ capOf s p ≤ (activeProfile s).cap ∧ (2048 ≤ hmax s → capOf s p ≤ 2) ∧ (3072 ≤ hmax s → capOf s p ≤ 1)
    ∧ (4096 ≤ hmax s → capOf s p = 0) := by
  unfold capOf
  generalize 25 * p.density.pitch / (36 * s.mech.phaseCount) - 1 = phase
  refine ⟨?_, ?_, ?_, fun h => ?_, fun h => ?_, fun h => ?_⟩ <;> (repeat' split) <;> omega

theorem madeOf_travel (hm : mechSound s = true) (hp : passSound p = true) :
    (0 ≤ (madeOf s tag p place).start ∧ (madeOf s tag p place).start ≤ 21599)
      ∧ 0 ≤ (madeOf s tag p place).stop ∧ (madeOf s tag p place).stop ≤ 21599 := by
  have within : ∀ o : Option Int, (∀ x, o = some x → inTravel x = true) → 0 ≤ o.getD 0 ∧ o.getD 0 ≤ 21599 := by
    rintro (_ | x) h
    · decide
    · exact (inTravel_iff x).1 (h x rfl)
  obtain ⟨hstart, hstop⟩ := extentFits_iff.1 (extentFits_fitGrade (extentFits_zero hm hp _) (capOf s p))
  exact ⟨within _ hstart, within _ hstop⟩

theorem madeOf_ends (hwork : ∃ ch c, Due s.pool p ch (madeOf s tag p place).dir c) :
    ∃ f l, FirstAt s.mech s.pool p (madeOf s tag p place).dir (madeOf s tag p place).grade f
      ∧ LastAt s.mech s.pool p (madeOf s tag p place).dir (madeOf s tag p place).grade l
      ∧ (madeOf s tag p place).start = (if (madeOf s tag p place).dir = .fwd then f - (madeOf s tag p place).runUp
          else f + (madeOf s tag p place).runUp)
      ∧ (madeOf s tag p place).stop = (if (madeOf s tag p place).dir = .fwd then l + (madeOf s tag p place).runUp
          else l - (madeOf s tag p place).runUp) := by
  obtain ⟨f, hf⟩ := exists_firstAt (m := s.mech) (g := (madeOf s tag p place).grade) hwork
  obtain ⟨l, hl⟩ := exists_lastAt (m := s.mech) (g := (madeOf s tag p place).grade) hwork
  have hstart : (madeOf s tag p place).start = startPos (madeOf s tag p place).dir (madeOf s tag p place).grade f :=
    (congrArg (Option.getD · 0) ((sweepStart_iff _).2 ⟨f, hf, rfl⟩) :)
  have hstop : (madeOf s tag p place).stop = endPos (madeOf s tag p place).dir (madeOf s tag p place).grade l :=
    (congrArg (Option.getD · 0) ((sweepStop_iff _).2 ⟨l, hl, rfl⟩) :)
  refine ⟨f, l, hf, hl, hstart.trans ?_, hstop.trans ?_⟩
  · cases (madeOf s tag p place).dir <;> rfl
  · cases (madeOf s tag p place).dir <;> rfl

/-- Of a first sweep the direction is that of R12. -/
theorem chooseDir_cases (m : Mech) (prof : Profile) (pool : Pool) (g : Nat) :
    (prof.bidir = false → chooseDir m prof pool p g place = .fwd)
    ∧ (prof.bidir = true → p.pref = .fwd → chooseDir m prof pool p g place = .fwd)
    ∧ (prof.bidir = true → p.pref = .rev → chooseDir m prof pool p g place = .rev)
    ∧ ∀ sf sr, prof.bidir = true → p.pref = .any → FirstAt m pool p .fwd g (sf + runUpOf g) →
        FirstAt m pool p .rev g (sr - runUpOf g) →
        chooseDir m prof pool p g place
          = if ((place : Int) - sr).natAbs < ((place : Int) - sf).natAbs then .rev else .fwd := by
  refine ⟨fun h => ?_, fun h hp => ?_, fun h hp => ?_, fun sf sr h hp hf hr => ?_⟩
  · simp [chooseDir, h]
  · simp [chooseDir, h, hp]
  · simp [chooseDir, h, hp]
  · have hsf : sweepStart m pool p .fwd g = some sf := (sweepStart_iff sf).2 ⟨_, hf, Int.add_sub_cancel ..⟩
    have hsr : sweepStart m pool p .rev g = some sr := (sweepStart_iff sr).2 ⟨_, hr, Int.sub_add_cancel ..⟩
    simp [chooseDir, h, hp, hsf, hsr]

end

theorem firingList_column_iff {m : Mech} {pool : Pool} {p : Pass} {ch : Chan} {dir : Dir} {g : Nat} (c : Nat) :
    (∃ x ∈ firingList m pool p ch dir g, x.column = c) ↔ Due pool p ch dir c := by
  constructor
  · rintro ⟨x, hx, rfl⟩
    exact (mem_firingList.1 hx).1
  · exact fun hc => ⟨{ column := c, pos := firingPos m p.density ch dir g c }, mem_firingList.2 ⟨hc, rfl⟩, rfl⟩

/-- An element of a firing list is an outstanding column of the pass at its firing position. -/
theorem firingList_elem {m : Mech} {pool : Pool} {p : Pass} {ch : Chan} {dir : Dir} {g : Nat} {x : Elem}
    (hx : x ∈ firingList m pool p ch dir g) :
    p.start ≤ x.column ∧ x.column < p.start + p.span ∧ chanOutstanding pool p ch x.column ≠ 0#24
      ∧ x.pos = m.origin + x.column * p.density.pitch - (if ch = .a then 0 else 36)
        + (if dir = .fwd then -(leadOf m g : Int) else leadOf m g) := by
  obtain ⟨⟨hlow, hhigh, hne, -⟩, hpos⟩ := mem_firingList.1 hx
  exact ⟨hlow, hhigh, hne, hpos.trans (firingPos_eq ..)⟩

/-- The cap grade with the adjacency cap of the direction the sweep is planned in. -/
theorem Plannable.capOf_eq {s : State} {tag : Byte} {p : Pass} {place : Nat} (h : Plannable p) : capOf s p =
    min (min (min 3 (25 * p.density.pitch / (36 * s.mech.phaseCount) - 1))
        (Machine.adjacencyCap s.pool p (madeOf s tag p place).dir))
      (min (activeProfile s).cap
        (if hmax s < 2048 then 3 else if hmax s < 3072 then 2 else if hmax s < 4096 then 1 else 0)) := by
  have hadj : Machine.adjacencyCap s.pool p (madeOf s tag p place).dir
      = Machine.adjacencyCap s.pool p (p.dir.getD .fwd) := (h.adjacencyCap place (capOf s p)).symm
  rw [hadj, capOf]

theorem planSweep_work (s : State) (tag : Byte) (p : Pass) (place : Nat) :
    (planSweep s tag p place = .noColumn ↔ ¬hasWork s.pool p = true)
    ∧ (planSweep s tag p place = .tooHot ↔ hasWork s.pool p = true ∧ 5120 ≤ hmax s)
    ∧ ((∃ plan, planSweep s tag p place = .made plan) ↔ hasWork s.pool p = true ∧ hmax s < 5120) := by
  refine ⟨planSweep_noColumn_iff, planSweep_tooHot_iff, ?_⟩
  simp only [planSweep_made_iff, exists_and_left, exists_eq, and_true]

/-- Settles O50: planning is `planSweep_eq`; of the plan made, the ends come from `extentFits_fitGrade`, the caps from
`capOf_le`, the lists from `mem_firingList`, and the rest are the equations of R7 to R14 proved above. -/
theorem plansFitTravelAndCaps : Obligations.PlansFitTravelAndCaps := by
  refine ⟨fun s tag p place hplan => ?_, rfl, rfl, rfl, fun s tag p place plan hm hp hmade => ?_⟩
  · refine ⟨hasWork s.pool p = true, ?_, planSweep_work s tag p place⟩
    rw [hasWork_iff]
    refine exists_congr fun ch => exists_congr fun c => and_congr_right fun _ => and_congr_right fun _ =>
      and_congr_right fun _ => (atOrBeyond_held_iff _ p.dir c (Plannable.resume hplan ch)).trans ?_
    cases ch <;> rfl
  · obtain ⟨⟨hwork, hcool⟩, rfl⟩ := planSweep_made_iff.1 hmade
    obtain ⟨⟨hstart0, hstart⟩, hstop0, hstop⟩ := madeOf_travel (tag := tag) (place := place) hm hp
    have hgrade : (madeOf s tag p place).grade ≤ capOf s p := fitGrade_le ..
    obtain ⟨h3, hphase, hspeed, h2048, h3072, h4096⟩ := capOf_le (s := s) (p := p)
    have hdue : Plannable p → ∃ ch c, Due s.pool p ch (madeOf s tag p place).dir c := fun hplan => by
      obtain ⟨ch, c, hc⟩ := (hasWork_iff _ _).1 hwork
      exact ⟨ch, c, (hplan.due_sweepDir ch place _ c).2 hc⟩
    refine ⟨rfl, hstart0, hstart, hstop0, hstop, hgrade.trans h3, hgrade.trans hphase, hgrade.trans hspeed, hcool,
      fun h => hgrade.trans (h2048 h), fun h => hgrade.trans (h3072 h), fun h => Nat.le_zero.1 (h4096 h ▸ hgrade), rfl,
      runUpOf_eq _, fun hplan => firingLists_ne_nil (hdue hplan), fun d hd => ?_, fun x hx => ?_, fun x hx => ?_,
      fun hplan => ?_⟩
    · exact (congrArg (Option.getD · _) hd :)
    · exact firingList_elem hx
    · exact firingList_elem hx
    · refine ⟨Due s.pool p, fun ch dir g c => firingPos s.mech p.density ch dir g c, fun g => runUpOf g,
        FirstAt s.mech s.pool p, LastAt s.mech s.pool p, adjacencyCap s.pool p (madeOf s tag p place).dir, capOf s p,
        fun ch dir c => ?_, fun ch dir g c => firingPos_eq .., fun g => congrArg Nat.cast (runUpOf_eq g),
        fun dir g f => Iff.rfl, fun dir g f => Iff.rfl, firingList_column_iff, firingList_column_iff,
        firingList_columns .., firingList_columns .., madeOf_ends (hdue hplan), adjacencyCap_cases ..,
        Plannable.capOf_eq hplan, hgrade, fun g hlow hhigh f l hf hl hfits => ?_, fun hd => ?_⟩
      · refine and_congr_right fun _ => and_congr_right fun _ => and_congr_right fun _ =>
          (atOrBeyond_iff _ dir c).trans ?_
        cases ch <;> rfl
      · exact Bool.false_ne_true ((not_extentFits_above hlow hhigh).symm.trans (extentFits_of_ends hf hl hfits))
      · have hdir : (madeOf s tag p place).dir = chooseDir s.mech (activeProfile s) s.pool p (capOf s p) place :=
          (congrArg (Option.getD · _) hd :)
        rw [hdir]
        exact chooseDir_cases ..

end Sys2Proof.Machine
end

section
/-! The blocks that the queue holds, what taking and freeing them leaves of the pool, and an image's columns after a
write. -/

namespace Sys2Proof.Machine

/-! ## Held and free blocks -/

/-- The blocks an entry holds. -/
def Entry.blocks (e : Entry) : List Nat := e.slots.filterMap id

theorem heldBlocks_eq (q : List Entry) : heldBlocks q = q.flatMap Entry.blocks := List.filterMap_flatMap

@[simp] theorem heldBlocks_nil : heldBlocks [] = [] := rfl

@[simp] theorem heldBlocks_cons (e : Entry) (q : List Entry) : heldBlocks (e :: q) = e.blocks ++ heldBlocks q := by
  simp [heldBlocks_eq]

@[simp] theorem heldBlocks_append (q r : List Entry) : heldBlocks (q ++ r) = heldBlocks q ++ heldBlocks r := by
  simp [heldBlocks_eq]

theorem heldBlocks_perm {q r : List Entry} (h : q.Perm r) : (heldBlocks q).Perm (heldBlocks r) := by
  rw [heldBlocks_eq, heldBlocks_eq]
  exact h.flatMap_right _

theorem mem_heldBlocks {q : List Entry} {b : Nat} : b ∈ heldBlocks q ↔ ∃ e ∈ q, b ∈ e.blocks := by
  simp [heldBlocks_eq]

theorem Entry.blocks_of_pass {e : Entry} {p : Pass} (h : e.pass = some p) : e.blocks = p.slots.filterMap id := by
  simp [Entry.blocks, Entry.slots, h]

/-- Every block is free or held, not both, and none is held twice (spec/02 R38). -/
def Shared (free : BitVec 128) (held : List Nat) : Prop :=
  held.Nodup ∧ (∀ b ∈ held, b < 128) ∧ ∀ b, b < 128 → (free.getLsbD b = true ↔ b ∉ held)

theorem poolSound_iff (s : State) : poolSound s = true ↔ s.pool.wf = true
    ∧ (∀ e ∈ s.queue, ∀ p, e.pass = some p → passSound p = true) ∧ Shared s.pool.free (heldBlocks s.queue) := by
  have hfree : ∀ b, (s.pool.free.getLsbD b == !(heldBlocks s.queue).contains b) = true
      ↔ (s.pool.free.getLsbD b = true ↔ b ∉ heldBlocks s.queue) := fun b => by
    rw [beq_iff_eq, Bool.eq_iff_iff, Bool.not_eq_true', ← Bool.not_eq_true, List.contains_iff_mem]
  simp only [poolSound, Bool.and_eq_true, List.all_eq_true, Option.all_eq_true, decide_eq_true_eq, List.mem_range,
    hfree, Shared, and_assoc]
  rfl

theorem passSound_iff (p : Pass) :
    passSound p = true ↔ p.slots.length = 51 ∧ 1 ≤ p.span ∧ p.start + p.span ≤ p.density.limit := by
  simp [passSound, and_assoc, Config.blockSlots]

theorem Density.limit_le (d : Density) : d.limit ≤ 3264 := by cases d <;> decide

theorem passSound_span {p : Pass} (h : passSound p = true) : p.span ≤ 3264 := by
  have := (passSound_iff p).1 h
  have := p.density.limit_le
  omega

theorem Shared.perm {free : BitVec 128} {l m : List Nat} (h : Shared free l) (hp : l.Perm m) : Shared free m := by
  obtain ⟨hnodup, hlt, hfree⟩ := h
  refine ⟨hp.nodup_iff.1 hnodup, fun b hb => hlt b (hp.mem_iff.2 hb), fun b hb => ?_⟩
  rw [← hp.mem_iff]
  exact hfree b hb

/-! ## Freeing -/

theorem Pool.release_free (p : Pool) (b i : Nat) :
    (p.release b).free.getLsbD i = (p.free.getLsbD i || (decide (i < 128) && decide (b = i))) := by
  rw [Pool.release, BitVec.getLsbD_or, BitVec.getLsbD_twoPow]
  by_cases hb : b = i <;> simp [hb]

theorem Pool.releaseAll_free (p : Pool) (l : List (Option Nat)) (i : Nat) (hi : i < 128) :
    (p.releaseAll l).free.getLsbD i = true ↔ p.free.getLsbD i = true ∨ i ∈ l.filterMap id := by
  induction l generalizing p with
  | nil => simp [Pool.releaseAll]
  | cons x t ih =>
    cases x with
    | none => simpa [Pool.releaseAll] using ih p
    | some b =>
      simp only [Pool.releaseAll, ih, Pool.release_free, Bool.or_eq_true, hi, decide_true, Bool.true_and,
        decide_eq_true_eq, List.filterMap_cons_some (f := id) (a := some b) rfl, List.mem_cons, or_assoc]
      rw [eq_comm (a := b)]

/-- Freed blocks go back to the pool. -/
theorem Shared.releaseAll {p : Pool} {l : List (Option Nat)} {rest : List Nat}
    (h : Shared p.free (l.filterMap id ++ rest)) : Shared (p.releaseAll l).free rest := by
  obtain ⟨hnodup, hlt, hfree⟩ := h
  obtain ⟨-, hrest, hapart⟩ := List.nodup_append.1 hnodup
  refine ⟨hrest, fun b hb => hlt b (List.mem_append_right _ hb), fun b hb => ?_⟩
  rw [p.releaseAll_free l b hb, hfree b hb, List.mem_append, not_or]
  constructor
  · rintro (⟨-, hb⟩ | hmem)
    · exact hb
    · exact fun hr => hapart b hmem b hr rfl
  · intro hr
    by_cases hmem : b ∈ l.filterMap id
    · exact .inr hmem
    · exact .inl ⟨hmem, hr⟩

/-! ## Columns of an image -/

/-- Two pools read the same in the given blocks. -/
def Agree (pool pool' : Pool) (blocks : List Nat) : Prop := ∀ k, k / 64 ∈ blocks → pool'.read k = pool.read k

theorem Agree.trans {p q r : Pool} {l : List Nat} (h : Agree p q l) (h' : Agree q r l) : Agree p r l :=
  fun k hk => (h' k hk).trans (h k hk)

theorem agree_write {p : Pool} (hp : p.wf = true) {k : Nat} {c : Column} {l : List Nat} (h : k / 64 ∉ l) :
    Agree p (p.write k c) l := fun j hj => by
  have hne : j ≠ k := fun hjk => h (hjk ▸ hj)
  exact (cellsRead_cellsWrite hp k j c).trans (if_neg hne)

theorem agree_take {p : Pool} {b : Nat} {l : List Nat} (h : b ∉ l) : Agree p (p.take b) l := fun j hj => by
  have hne : j / 64 ≠ b := fun hjb => h (hjb ▸ hj)
  exact (cellsRead_cellsErase p.cells b j).trans (if_neg hne)

theorem agree_release {p : Pool} {b : Nat} {l : List Nat} (h : b ∉ l) : Agree p (p.release b) l := agree_take h

theorem agree_releaseAll {p : Pool} {slots : List (Option Nat)} {l : List Nat} (h : ∀ b ∈ slots.filterMap id, b ∉ l) :
    Agree p (p.releaseAll slots) l := by
  induction slots generalizing p with
  | nil => exact fun _ _ => rfl
  | cons x t ih =>
    cases x with
    | none => exact ih (by simpa using h)
    | some b =>
      simp only [List.filterMap_cons_some (f := id) (a := some b) rfl, List.mem_cons, forall_eq_or_imp] at h
      exact (agree_release h.1).trans (ih h.2)

theorem address_eq_some {p : Pass} {c k : Nat} :
    p.address c = some k ↔ ∃ b, p.slots[c / 64]? = some (some b) ∧ k = b * 64 + c % 64 := by
  have hget : ∀ b, p.slots.getD (c / 64) none = some b ↔ p.slots[c / 64]? = some (some b) := fun b => by
    rw [List.getD_eq_getElem?_getD]
    cases p.slots[c / 64]? <;> simp
  simp only [Pass.address, Config.blockColumns, Option.map_eq_some_iff, hget, eq_comm (b := k)]

/-- The block of an address is one of the image's. -/
theorem address_block {p : Pass} {c k : Nat} (h : p.address c = some k) : k / 64 ∈ p.slots.filterMap id := by
  obtain ⟨b, hb, rfl⟩ := address_eq_some.1 h
  have hdiv : (b * 64 + c % 64) / 64 = b := by omega
  rw [hdiv]
  exact List.mem_filterMap.2 ⟨some b, List.mem_of_getElem? hb, rfl⟩

/-- An image reads the same in a pool that agrees on its blocks. -/
theorem passColumn_agree {pool pool' : Pool} {p : Pass} (h : Agree pool pool' (p.slots.filterMap id)) (c : Nat) :
    passColumn pool' p c = passColumn pool p c := by
  unfold passColumn
  cases hk : p.address c with
  | none => rfl
  | some k => exact h k (address_block hk)

/-- Distinct slots hold distinct blocks. -/
theorem slot_inj {l : List (Option Nat)} (h : (l.filterMap id).Nodup) {i j b : Nat} (hi : l[i]? = some (some b))
    (hj : l[j]? = some (some b)) : i = j := by
  induction l generalizing i j with
  | nil => simp at hi
  | cons x t ih =>
    have hmem : ∀ n, t[n]? = some (some b) → b ∈ t.filterMap id := fun n hn =>
      List.mem_filterMap.2 ⟨some b, List.mem_of_getElem? hn, rfl⟩
    cases x with
    | none =>
      have h : (t.filterMap id).Nodup := by simpa using h
      cases i <;> cases j <;> simp_all
      exact ih hi hj
    | some a =>
      obtain ⟨ha, h⟩ : a ∉ t.filterMap id ∧ (t.filterMap id).Nodup := by
        rw [List.filterMap_cons_some (f := id) (a := some a) rfl] at h
        exact List.nodup_cons.1 h
      cases i <;> cases j
      · rfl
      · simp only [List.getElem?_cons_zero, Option.some.injEq, List.getElem?_cons_succ] at hi hj
        exact absurd (hmem _ hj) (hi ▸ ha)
      · simp only [List.getElem?_cons_zero, Option.some.injEq, List.getElem?_cons_succ] at hi hj
        exact absurd (hmem _ hi) (hj ▸ ha)
      · exact congrArg _ (ih h hi hj)

/-- Distinct columns of an image have distinct addresses. -/
theorem address_inj {p : Pass} (h : (p.slots.filterMap id).Nodup) {c d k : Nat} (hc : p.address c = some k)
    (hd : p.address d = some k) : c = d := by
  obtain ⟨b, hb, rfl⟩ := address_eq_some.1 hc
  obtain ⟨b', hb', heq⟩ := address_eq_some.1 hd
  obtain rfl : b = b' := by omega
  have := slot_inj h hb hb'
  omega

/-- A write at the address of a column changes that column of the image alone. -/
theorem passColumn_write {pool : Pool} (hwf : pool.wf = true) {p : Pass} (hnodup : (p.slots.filterMap id).Nodup)
    {c k : Nat} (hk : p.address c = some k) (v : Column) (d : Nat) :
    passColumn (pool.write k v) p d = if d = c then v else passColumn pool p d := by
  have hread : ∀ j, (pool.write k v).read j = if j = k then v else pool.read j := fun j =>
    cellsRead_cellsWrite hwf k j v
  unfold passColumn
  by_cases hd : d = c
  · rw [hd, hk, if_pos rfl]
    exact (hread k).trans (if_pos rfl)
  · rw [if_neg hd]
    cases hj : p.address d with
    | none => rfl
    | some j => exact (hread j).trans (if_neg fun hjk : j = k => hd (address_inj hnodup hj (hjk ▸ hk)))

/-! ## The entry of a tag -/

/-- The entry found and the others, where tags are distinct. -/
theorem perm_of_findEntry {q : List Entry} {tag : Byte} {e : Entry} (hq : (q.map Entry.tag).Nodup)
    (h : findEntry q tag = some e) : q.Perm (e :: q.filter fun x => x.tag != tag) := by
  induction q with
  | nil => simp [findEntry] at h
  | cons a t ih =>
    obtain ⟨ha, ht⟩ := List.nodup_cons.1 hq
    by_cases hat : a.tag = tag
    · obtain rfl : a = e := by simpa [findEntry, hat] using h
      have hothers : t.filter (fun x => x.tag != tag) = t :=
        List.filter_eq_self.2 fun x hx => by
          simpa using fun hxt => ha (List.mem_map.2 ⟨x, hx, hxt.trans hat.symm⟩)
      simp [hat, hothers]
    · have hfind : findEntry t tag = some e := by simpa [findEntry, hat] using h
      have hfilter : (a :: t).filter (fun x => x.tag != tag) = a :: t.filter fun x => x.tag != tag := by
        simp [hat]
      rw [hfilter]
      exact ((ih ht hfind).cons a).trans (List.Perm.swap e a _)

/-- The entry found as changed, and the others. -/
theorem perm_updateEntry {q : List Entry} {tag : Byte} {e : Entry} (hq : (q.map Entry.tag).Nodup)
    (h : findEntry q tag = some e) (f : Entry → Entry) :
    (updateEntry q tag f).Perm (f e :: q.filter fun x => x.tag != tag) := by
  have hothers : ∀ l : List Entry, (l.filter fun x => x.tag != tag).map (fun x => if x.tag = tag then f x else x)
      = l.filter fun x => x.tag != tag := fun l =>
    (List.map_congr_left fun x hx => if_neg (by simpa using (List.mem_filter.1 hx).2)).trans (List.map_id _)
  have := (perm_of_findEntry hq h).map fun x => if x.tag = tag then f x else x
  rwa [List.map_cons, if_pos (findEntry_tag h).2, hothers] at this

end Sys2Proof.Machine
end

section
/-! What an act leaves of the queue, the completion list and the pool. -/

namespace Sys2Proof.Machine

/-! ## The queue in words -/

theorem queueSound_iff (s : State) : queueSound s = true ↔ s.queue.length ≤ 8 ∧ (s.queue.map Entry.tag).Nodup
    ∧ s.queue.countP (fun e => e.state == .opened) ≤ 1 := by
  simp only [queueSound, Bool.and_eq_true, decide_eq_true_eq, and_assoc]; rfl

theorem headOnlySound_iff (s : State) : headOnlySound s = true ↔ ∀ e ∈ s.queue.tail, e.state.started = false := by
  simp [headOnlySound]

theorem recordsSound_iff (s : State) : recordsSound s = true ↔ s.events.records.length ≤ 8 := by
  simp only [recordsSound, decide_eq_true_eq]; rfl

/-! ## A queue whose entries stay in their places -/

/-- What the pool's account of a pass reads: where its image lies. -/
def Pass.plot (p : Pass) : List (Option Nat) × Density × Nat × Nat := (p.slots, p.density, p.start, p.span)

/-- An entry goes on as another: the tag and the part of its pass in view stay, none becomes OPEN and none that was
taken up goes back. -/
structure Kin {α : Type} (view : Pass → α) (e f : Entry) : Prop where
  tag : f.tag = e.tag
  pass : f.pass.map view = e.pass.map view
  opened : f.state = .opened → e.state = .opened
  started : e.state.started = true → f.state.started = true

/-- An entry behind the head goes on: it is not taken up. -/
structure KinBehind {α : Type} (view : Pass → α) (e f : Entry) : Prop extends Kin view e f where
  behind : f.state.started = true → e.state.started = true

/-- The entries of a queue stay in their places, and only the head may be taken up. -/
inductive QueueKept {α : Type} (view : Pass → α) : List Entry → List Entry → Prop
  | nil : QueueKept view [] []
  | cons {e f : Entry} {q r : List Entry} (head : Kin view e f) (rest : List.Forall₂ (KinBehind view) q r) :
      QueueKept view (e :: q) (f :: r)

section
variable {α β : Type} {view : Pass → α}

theorem Kin.refl (e : Entry) : Kin view e e := ⟨rfl, rfl, id, id⟩

theorem KinBehind.refl (e : Entry) : KinBehind view e e := ⟨.refl e, id⟩

theorem Kin.trans {e f g : Entry} (h : Kin view e f) (h' : Kin view f g) : Kin view e g :=
  ⟨h'.tag.trans h.tag, h'.pass.trans h.pass, fun ho => h.opened (h'.opened ho), fun hs => h'.started (h.started hs)⟩

theorem KinBehind.trans {e f g : Entry} (h : KinBehind view e f) (h' : KinBehind view f g) : KinBehind view e g :=
  ⟨h.toKin.trans h'.toKin, fun hs => h.behind (h'.behind hs)⟩

theorem kinBehind_refl (q : List Entry) : List.Forall₂ (KinBehind view) q q :=
  List.forall₂_same.2 fun e _ => .refl e

theorem QueueKept.refl (q : List Entry) : QueueKept view q q := by
  cases q with
  | nil => exact .nil
  | cons e q => exact .cons (.refl e) (kinBehind_refl q)

theorem kinBehind_trans : ∀ {q r u : List Entry}, List.Forall₂ (KinBehind view) q r →
    List.Forall₂ (KinBehind view) r u → List.Forall₂ (KinBehind view) q u
  | _, _, _, .nil, .nil => .nil
  | _, _, _, .cons h t, .cons h' t' => .cons (h.trans h') (kinBehind_trans t t')

theorem QueueKept.trans {q r u : List Entry} (h : QueueKept view q r) (h' : QueueKept view r u) :
    QueueKept view q u := by
  cases h with
  | nil => exact h'
  | cons head rest =>
    cases h' with
    | cons head' rest' => exact .cons (head.trans head') (kinBehind_trans rest rest')

/-- A narrower view keeps no less. -/
theorem QueueKept.of_view {q r : List Entry} (h : QueueKept view q r) {wide : Pass → β} (f : α → β)
    (hf : ∀ p, f (view p) = wide p) : QueueKept wide q r := by
  have kin : ∀ {e e' : Entry}, Kin view e e' → Kin wide e e' := fun {e e'} k => by
    refine ⟨k.tag, ?_, k.opened, k.started⟩
    simpa [Function.comp_def, hf] using congrArg (Option.map f) k.pass
  cases h with
  | nil => exact .nil
  | cons head rest => exact .cons (kin head) (rest.imp fun _ _ k => ⟨kin k.toKin, k.behind⟩)

/-- Entry by entry, a kept queue is one of kin. -/
theorem QueueKept.forall₂ {q r : List Entry} (h : QueueKept view q r) : List.Forall₂ (Kin view) q r := by
  cases h with
  | nil => exact .nil
  | cons head rest => exact .cons head (rest.imp fun _ _ k => k.toKin)

theorem QueueKept.head {q r : List Entry} (h : QueueKept view q r) {e : Entry} (he : q.head? = some e) :
    ∃ f, r.head? = some f ∧ Kin view e f := by
  cases h with
  | nil => simp at he
  | cons head rest =>
    obtain rfl := Option.some.inj he
    exact ⟨_, rfl, head⟩

theorem forall₂_mem_right {R : Entry → Entry → Prop} {q r : List Entry} (h : List.Forall₂ R q r) {f : Entry}
    (hf : f ∈ r) : ∃ e ∈ q, R e f := by
  induction h with
  | nil => cases hf
  | cons hr _ ih =>
    rcases List.mem_cons.1 hf with rfl | hf
    · exact ⟨_, .head _, hr⟩
    · obtain ⟨e, he, hr⟩ := ih hf
      exact ⟨e, .tail _ he, hr⟩

theorem QueueKept.mem {q r : List Entry} (h : QueueKept view q r) {f : Entry} (hf : f ∈ r) : ∃ e ∈ q, Kin view e f :=
  forall₂_mem_right h.forall₂ hf

theorem tags_of_kin : ∀ {q r : List Entry}, List.Forall₂ (Kin view) q r → r.map Entry.tag = q.map Entry.tag
  | _, _, .nil => rfl
  | _, _, .cons h t => by rw [List.map_cons, List.map_cons, h.tag, tags_of_kin t]

theorem opened_of_kin : ∀ {q r : List Entry}, List.Forall₂ (Kin view) q r →
    r.countP (fun e => e.state == .opened) ≤ q.countP (fun e => e.state == .opened)
  | _, _, .nil => le_rfl
  | e :: _, f :: _, .cons h t => by
    have ht := opened_of_kin t
    have hh := h.opened
    rw [List.countP_cons, List.countP_cons]
    by_cases hf : f.state = .opened
    · simp [hf, hh hf, ht]
    · simp [hf]; omega

theorem QueueKept.mapHead {f : Entry → Entry} (hf : ∀ e, Kin view e (f e)) (s : State) :
    QueueKept view s.queue (mapHead f s).queue := by
  cases h : s.queue with
  | nil => rw [mapHead_nil h, h]; exact .nil
  | cons e q => rw [mapHead_cons h]; exact .cons (hf e) (kinBehind_refl q)

theorem QueueKept.map {f : Entry → Entry} (hf : ∀ e, KinBehind view e (f e)) (q : List Entry) :
    QueueKept view q (q.map f) := by
  have rest : ∀ q : List Entry, List.Forall₂ (KinBehind view) q (q.map f) := fun q =>
    List.forall₂_map_right_iff.2 (List.forall₂_same.2 fun e _ => hf e)
  cases q with
  | nil => exact .nil
  | cons e q => exact .cons (hf e).toKin (rest q)

/-- Where only the head was taken up, it still is only the head. -/
theorem QueueKept.behind {q r : List Entry} (h : QueueKept view q r) (hq : ∀ e ∈ q.tail, e.state.started = false) :
    ∀ f ∈ r.tail, f.state.started = false := by
  cases h with
  | nil => exact hq
  | cons head rest =>
    intro f hf
    obtain ⟨e, he, k⟩ := forall₂_mem_right rest hf
    exact Bool.eq_false_iff.2 fun hs => Bool.eq_false_iff.1 (hq e he) (k.behind hs)

/-- Kin have the same block slots. -/
theorem slots_of_kin {e f : Entry} (h : Kin Pass.plot e f) : f.slots = e.slots := by
  have hslots : ∀ x : Entry, x.slots = ((x.pass.map Pass.plot).map Prod.fst).getD [] := fun x => by
    cases hx : x.pass <;> simp [Entry.slots, hx, Pass.plot]
  rw [hslots, hslots, h.pass]

theorem heldBlocks_of_kin : ∀ {q r : List Entry}, List.Forall₂ (Kin Pass.plot) q r → heldBlocks r = heldBlocks q
  | _, _, .nil => rfl
  | _, _, .cons h t => by
    rw [heldBlocks_cons, heldBlocks_cons, Entry.blocks, Entry.blocks, slots_of_kin h, heldBlocks_of_kin t]

theorem passSound_congr {p q : Pass} (h : q.plot = p.plot) : passSound q = passSound p := by
  simp only [Pass.plot, Prod.mk.injEq] at h
  obtain ⟨h1, h2, h3, h4⟩ := h
  simp [passSound, h1, h2, h3, h4]

end

/-! ## What every act keeps -/

/-- From one state to another the queue, the completion list and the pool stay sound. -/
structure Preserves (s t : State) : Prop where
  queue : queueSound s = true → queueSound t = true
  head : headOnlySound s = true → headOnlySound t = true
  records : recordsSound s = true → recordsSound t = true
  pool : queueSound s = true → poolSound s = true → poolSound t = true

theorem Preserves.refl (s : State) : Preserves s s := ⟨id, id, id, fun _ => id⟩

theorem Preserves.trans {s t u : State} (h : Preserves s t) (h' : Preserves t u) : Preserves s u :=
  ⟨fun hq => h'.queue (h.queue hq), fun hh => h'.head (h.head hh), fun hr => h'.records (h.records hr),
    fun hq hp => h'.pool (h.queue hq) (h.pool hq hp)⟩

/-- An act that leaves every entry in its place and takes and frees no block. -/
structure Kept (s t : State) : Prop where
  queue : QueueKept Pass.plot s.queue t.queue
  free : t.pool.free = s.pool.free
  cells : s.pool.wf = true → t.pool.wf = true
  records : recordsSound s = true → recordsSound t = true

theorem Kept.trans {s t u : State} (h : Kept s t) (h' : Kept t u) : Kept s u :=
  ⟨h.queue.trans h'.queue, h'.free.trans h.free, fun hw => h'.cells (h.cells hw), fun hr => h'.records (h.records hr)⟩

theorem Kept.preserves {s t : State} (h : Kept s t) : Preserves s t := by
  have hkin := h.queue.forall₂
  refine ⟨fun hq => ?_, fun hh => ?_, h.records, fun _ hp => ?_⟩
  · obtain ⟨hlen, htags, hopen⟩ := (queueSound_iff s).1 hq
    exact (queueSound_iff t).2
      ⟨hkin.length_eq ▸ hlen, tags_of_kin hkin ▸ htags, (opened_of_kin hkin).trans hopen⟩
  · exact (headOnlySound_iff t).2 (h.queue.behind ((headOnlySound_iff s).1 hh))
  · obtain ⟨hwf, hpass, hshared⟩ := (poolSound_iff s).1 hp
    refine (poolSound_iff t).2 ⟨h.cells hwf, fun f hf p hfp => ?_, ?_⟩
    · obtain ⟨e, he, k⟩ := h.queue.mem hf
      have hpass' := k.pass
      rw [hfp] at hpass'
      obtain ⟨p', hp', hplot⟩ := Option.map_eq_some_iff.1 hpass'.symm
      exact (passSound_congr hplot.symm).trans (hpass e he p' hp')
    · rw [h.free, heldBlocks_of_kin hkin]
      exact hshared

end Sys2Proof.Machine
end

section
/-! The acts that fire, lose, plan and free nothing: what they leave of the account of the dots. -/

namespace Sys2Proof.Machine

/-! ## Quiet acts -/

/-- What the account of the dots reads of a pass. -/
def Pass.account (p : Pass) : Pass :=
  { p with pref := .any, dir := none, resumeA := none, resumeB := none, sweeps := 0, deadline := none }

/-- The carriage is in the run-up or in the sweep of a plan. -/
def sweeping (s : State) : Bool := s.carriage.state == .runup || s.carriage.state == .sweep

/-- The columns a channel has still to match. -/
def columnsLeft (s : State) : Chan → List Nat
  | .a => (s.carriage.chanA.list.drop s.carriage.chanA.next).map Elem.column
  | .b => (s.carriage.chanB.list.drop s.carriage.chanB.next).map Elem.column

/-- An act that marks no dot and gives the driver, the carriage and the runner nothing to work on: it may put an end to
what they work on. -/
structure Quiet (s t : State) : Prop where
  queue : QueueKept Pass.account s.queue t.queue
  pool : t.pool = s.pool
  records : recordsSound s = true → recordsSound t = true
  pendA : t.driver.pendA = none ∨ t.driver.pendA = s.driver.pendA
  pendB : t.driver.pendB = none ∨ t.driver.pendB = s.driver.pendB
  owed : (owedBursts t).Subperm (owedBursts s)
  sweep : sweeping t = true → sweeping s = true ∧ ∀ ch, columnsLeft t ch = columnsLeft s ch
  headPlan : t.runner.headPlan = none ∨ t.runner.headPlan = s.runner.headPlan
  lookAhead : t.runner.lookAhead = none ∨ t.runner.lookAhead = s.runner.lookAhead
  advance : advancingHead t = true → advancingHead s = true ∧ (t.runner.phase = .prep → s.runner.phase = .prep)

theorem Quiet.kept {s t : State} (h : Quiet s t) : Kept s t :=
  ⟨h.queue.of_view Pass.plot fun _ => rfl, by rw [h.pool], by rw [h.pool]; exact id, h.records⟩

theorem Quiet.refl (s : State) : Quiet s s :=
  ⟨.refl _, rfl, id, .inr rfl, .inr rfl, List.Subperm.refl _, fun h => ⟨h, fun _ => rfl⟩, .inr rfl, .inr rfl,
    fun h => ⟨h, id⟩⟩

/-- What is given up or left twice is given up or left. -/
theorem dropped_trans {α : Type} {x y z : Option α} (h : y = none ∨ y = x) (h' : z = none ∨ z = y) :
    z = none ∨ z = x := by
  rcases h' with rfl | rfl
  · exact .inl rfl
  · exact h

theorem Quiet.trans {s t u : State} (h : Quiet s t) (h' : Quiet t u) : Quiet s u where
  queue := h.queue.trans h'.queue
  pool := h'.pool.trans h.pool
  records hr := h'.records (h.records hr)
  pendA := dropped_trans h.pendA h'.pendA
  pendB := dropped_trans h.pendB h'.pendB
  owed := h'.owed.trans h.owed
  sweep hu := by
    obtain ⟨ht, hcols⟩ := h'.sweep hu
    obtain ⟨hs, hcols'⟩ := h.sweep ht
    exact ⟨hs, fun ch => (hcols ch).trans (hcols' ch)⟩
  headPlan := dropped_trans h.headPlan h'.headPlan
  lookAhead := dropped_trans h.lookAhead h'.lookAhead
  advance hu := by
    obtain ⟨ht, hphase⟩ := h'.advance hu
    obtain ⟨hs, hphase'⟩ := h.advance ht
    exact ⟨hs, fun hp => hphase' (hphase hp)⟩

/-! ### One block replaced -/

/-- The blocks that the account of the dots speaks of. -/
structure Work where
  queue : List Entry
  pool : Pool
  runner : Runner
  carriage : Carriage
  running : Option Running
  pendA : Option Burst
  pendB : Option Burst
  motion : Option Motion
  records : List Completion

def work (s : State) : Work where
  queue := s.queue
  pool := s.pool
  runner := s.runner
  carriage := s.carriage
  running := s.driver.running
  pendA := s.driver.pendA
  pendB := s.driver.pendB
  motion := s.paper.motion
  records := s.events.records

section
variable {s t : State}

/-- Acts on time, pins, link, outputs, heat and the settings are quiet. -/
theorem Quiet.of_work (h : Quiet s t) {u : State} (hu : work u = work t := by simp [work]) : Quiet s u := by
  obtain ⟨hq, hp, hr, hc, hrun, ha, hb, hm, hrec⟩ := Work.mk.inj hu
  have howed : owedBursts u = owedBursts t := by simp [owedBursts, hrun, ha, hb]
  exact h.trans ⟨hq ▸ .refl _, hp, by simp [recordsSound, hrec], .inr ha, .inr hb, howed ▸ List.Subperm.refl _,
    fun h => ⟨by simpa [sweeping, hc] using h, fun ch => by cases ch <;> simp [columnsLeft, hc]⟩, .inr (by rw [hr]),
    .inr (by rw [hr]), fun h => ⟨by simpa [advancingHead, hm] using h, by simp [hr]⟩⟩

theorem Quiet.setQueue (h : Quiet s t) {q : List Entry} (hq : QueueKept Pass.account t.queue q) :
    Quiet s (t.setQueue q) :=
  h.trans { Quiet.refl t with queue := hq }

/-- The runner is given no plan, and does not go back to PREP while the head's advance is in flight. -/
theorem Quiet.setRunner (h : Quiet s t) {x : Runner}
    (hplan : x.headPlan = none ∨ x.headPlan = t.runner.headPlan := by simp)
    (hahead : x.lookAhead = none ∨ x.lookAhead = t.runner.lookAhead := by simp)
    (hphase : advancingHead t = true → x.phase = .prep → t.runner.phase = .prep := by simp) : Quiet s (t.setRunner x) :=
  h.trans { Quiet.refl t with headPlan := hplan, lookAhead := hahead, advance := fun ht => ⟨ht, hphase ht⟩ }

/-- The carriage moves on or rests without a sweep. -/
theorem Quiet.noSweep (h : Quiet s t) {x : Carriage} (hr : x.state ≠ .runup := by simp)
    (hs : x.state ≠ .sweep := by simp) : Quiet s (t.setCarriage x) :=
  h.trans { Quiet.refl t with sweep := fun ht => by simp [sweeping, hr, hs] at ht }

/-- The carriage keeps its state and its channels. -/
theorem Quiet.sameSweep (h : Quiet s t) {x : Carriage} (hs : x.state = t.carriage.state := by simp)
    (ha : x.chanA = t.carriage.chanA := by simp) (hb : x.chanB = t.carriage.chanB := by simp) :
    Quiet s (t.setCarriage x) :=
  h.trans { Quiet.refl t with
    sweep := fun ht => ⟨by simpa [sweeping, hs] using ht, fun ch => by cases ch <;> simp [columnsLeft, ha, hb]⟩ }

/-- The paper goes on without a new order for the head's advance. -/
theorem Quiet.setPaper (h : Quiet s t) {x : Paper}
    (hx : advancingHead (t.setPaper x) = true → advancingHead t = true := by simp [advancingHead]) :
    Quiet s (t.setPaper x) :=
  h.trans { Quiet.refl t with advance := fun ht => ⟨hx ht, id⟩ }

theorem Quiet.mapHead (h : Quiet s t) {f : Entry → Entry} (hf : ∀ e, Kin Pass.account e (f e)) :
    Quiet s (Machine.mapHead f t) := by
  cases hq : t.queue with
  | nil => rw [mapHead_nil hq]; exact h
  | cons e q => rw [mapHead_cons hq]; exact h.setQueue (hq ▸ .cons (hf e) (kinBehind_refl q))

/-- The head's bookkeeping changes: its direction, its resume columns, the sweeps it has used. -/
theorem Quiet.mapHeadPass (h : Quiet s t) {f : Pass → Pass}
    (hf : ∀ p, (f p).account = p.account := by exact fun _ => rfl) : Quiet s (Machine.mapHeadPass f t) :=
  h.mapHead fun e => ⟨rfl, by simp [Function.comp_def, hf], id, id⟩

/-- The head is taken up. -/
theorem Quiet.setHeadState (h : Quiet s t) {st : EntryState} (hst : st.started = true := by rfl) :
    Quiet s (Machine.setHeadState st t) :=
  h.mapHead fun _ => ⟨rfl, rfl, fun ho => absurd (hst.symm.trans (congrArg EntryState.started ho)) nofun, fun _ => hst⟩

/-! ### Machine/Ops.lean -/

theorem Quiet.latch (h : Quiet s t) {e : Event} : Quiet s (Machine.latch e t) := h.of_work rfl

theorem Quiet.setPins (h : Quiet s t) {x : Pins} : Quiet s (t.setPins x) := h.of_work rfl

theorem Quiet.setLink (h : Quiet s t) {x : Link} : Quiet s (t.setLink x) := h.of_work rfl

theorem Quiet.setForms (h : Quiet s t) {x : Forms} : Quiet s (t.setForms x) := h.of_work rfl

theorem Quiet.setOutputs (h : Quiet s t) {x : Outputs} : Quiet s (t.setOutputs x) := h.of_work rfl

theorem Quiet.setHeat (h : Quiet s t) {x : List Nat} : Quiet s (t.setHeat x) := h.of_work rfl

theorem Quiet.setTime (h : Quiet s t) {x : TimeBase} : Quiet s (t.setTime x) := h.of_work rfl

theorem Quiet.startStall (h : Quiet s t) : Quiet s (Machine.startStall t) := h.of_work rfl

theorem Quiet.stopStall (h : Quiet s t) : Quiet s (Machine.stopStall t) := h.of_work rfl

theorem Quiet.stopWindow (h : Quiet s t) : Quiet s (Machine.stopWindow t) := h.of_work rfl

theorem Quiet.settleTear (h : Quiet s t) : Quiet s (Machine.settleTear t) := h.of_work

theorem Quiet.firstOrderGiven (h : Quiet s t) : Quiet s (Machine.firstOrderGiven t) := h.setRunner

/-! ### Machine/Paper.lean -/

/-- With no advance of the head in flight the runner may go to its first phase. -/
theorem Quiet.firstPhase (h : Quiet s t) (ht : advancingHead t = false) : Quiet s (Machine.firstPhase t) := by
  unfold Machine.firstPhase
  split
  · exact h.setRunner (hphase := by simp [ht])
  · exact h.setRunner

theorem Quiet.prepCheck (h : Quiet s t) : Quiet s (Machine.prepCheck t) := by
  unfold Machine.prepCheck
  split
  · exact h.setRunner
  split
  · exact h.setRunner
  · exact h.setRunner

theorem Quiet.setPause (h : Quiet s t) {b : Bool} : Quiet s (Machine.setPause b t) := h.setRunner

theorem Quiet.parkAt (h : Quiet s t) {d : Nat} : Quiet s (Machine.parkAt d t) := h.setPaper

theorem Quiet.restPaper (h : Quiet s t) {st : PaperState} : Quiet s (Machine.restPaper st t) := h.setPaper

theorem Quiet.stopPaper (h : Quiet s t) {c : StopCause} : Quiet s (Machine.stopPaper c t) := by
  unfold Machine.stopPaper
  split
  · exact h
  · rename_i m hm
    refine h.setPaper fun ha => ?_
    rcases hs : m.stop with _ | x <;> cases c <;> simp_all [advancingHead, Motion.aborted]

theorem Quiet.issueUnit (h : Quiet s t) {m : Motion} (hm : t.paper.motion = some m) :
    Quiet s (Machine.issueUnit m t) := by
  refine (h.setPaper fun ha => ?_).of_work rfl
  rcases hs : m.stop with _ | x <;> simp_all [advancingHead, Motion.aborted]

/-- The end of the paper takes a motion that is no head's advance to rest. -/
theorem Quiet.paperEndStop (h : Quiet s t) {m : Motion} (hm : ∀ tag, m.purpose ≠ .entryAdvance tag) :
    Quiet s (Machine.paperEndStop m t) := by
  have hpause : Quiet s (Machine.setPause true (Machine.latch .paperOutStop t)) := h.latch.setPause
  unfold Machine.paperEndStop
  dsimp only
  split
  · exact hpause.parkAt.latch
  · exact absurd ‹_› (hm _)
  · exact hpause.restPaper
  · exact hpause.restPaper

/-- An order that is no head's advance. -/
theorem Quiet.takeOrder (h : Quiet s t) {p : Purpose} {d : Int} (hp : ∀ tag, p ≠ .entryAdvance tag) :
    Quiet s (Machine.takeOrder p d t) := by
  unfold Machine.takeOrder
  split
  · cases p with
    | entryAdvance tag => exact absurd rfl (hp tag)
    | skip => exact h.prepCheck
    | retract => exact h.restPaper.firstPhase rfl
    | tear => exact h
  · dsimp only
    split
    · exact h.paperEndStop hp
    · refine h.setPaper fun ha => ?_
      cases p <;> simp_all [advancingHead]

theorem Quiet.giveRetract (h : Quiet s t) : Quiet s (Machine.giveRetract t) := by
  unfold Machine.giveRetract
  split
  · exact h.takeOrder nofun
  · exact h

theorem Quiet.tearIdleTimerExpiry (h : Quiet s t) : Quiet s (Machine.tearIdleTimerExpiry t) := by
  have hstop : Quiet s (stopTear t) := h.of_work rfl
  unfold Machine.tearIdleTimerExpiry
  split
  · dsimp only
    split
    · exact hstop.parkAt.latch.settleTear
    · exact (hstop.takeOrder (p := .tear) nofun).settleTear
  · exact h

theorem Quiet.prep (h : Quiet s t) : Quiet s (Machine.prep t) := by
  unfold Machine.prep
  split
  · split
    · split
      · exact h.firstOrderGiven.takeOrder nofun
      · exact h
    · exact h.firstOrderGiven.prepCheck
  · exact h

/-! ### Machine/Carriage.lean -/

theorem Quiet.raiseFault (h : Quiet s t) {code : FaultCode} {tag : Option Byte} {pos : Option Nat} :
    Quiet s (Machine.raiseFault code tag pos t) := by
  rw [raiseFault_eq]
  exact h.setRunner.latch.stopPaper

theorem Quiet.homingOrder (h : Quiet s t) {src : HomingSource} : Quiet s (Machine.homingOrder src t) :=
  h.noSweep.startStall

theorem Quiet.approachOrder (h : Quiet s t) {n : Nat} : Quiet s (Machine.approachOrder n t) := by
  unfold Machine.approachOrder
  split
  · exact h
  · exact h.noSweep.startStall

theorem Quiet.giveOwedHoming (h : Quiet s t) : Quiet s (Machine.giveOwedHoming t) := by
  unfold Machine.giveOwedHoming
  split
  · exact h.setRunner.homingOrder
  · exact h

theorem Quiet.flushResume (h : Quiet s t) : Quiet s (Machine.flushResume t) := by
  unfold Machine.flushResume
  split
  · exact h.mapHeadPass.sameSweep
  · exact h

theorem Quiet.dropPending (h : Quiet s t) : Quiet s (Machine.dropPending t) := by
  refine h.trans { Quiet.refl t with pendA := .inl rfl, pendB := .inl rfl, owed := List.Sublist.subperm ?_ }
  refine List.Sublist.filter _ ?_
  simp [Machine.dropPending]

theorem Quiet.brakeFor (h : Quiet s t) {c : BrakeCause} : Quiet s (Machine.brakeFor c t) := h.noSweep

theorem Quiet.stopSweep (h : Quiet s t) {c : BrakeCause} : Quiet s (Machine.stopSweep c t) :=
  h.dropPending.brakeFor.sameSweep.flushResume

theorem Quiet.suspendTrigger (h : Quiet s t) {r : SuspendReason} : Quiet s (Machine.suspendTrigger r t) := by
  unfold Machine.suspendTrigger
  split
  · split
    · exact h
    · exact h.stopSweep
  · exact h.brakeFor
  · exact h

theorem Quiet.checkSweepEnd (h : Quiet s t) : Quiet s (Machine.checkSweepEnd t) := by
  unfold Machine.checkSweepEnd
  split
  · exact h.mapHeadPass.brakeFor
  · exact h

theorem Quiet.carriageLost (h : Quiet s t) : Quiet s (Machine.carriageLost t) := by
  have hlost : Quiet s ((Machine.dropPending t).setCarriage { Carriage.reset with
      resumeDue := if t.carriage.state = .sweep then planLists t else t.carriage.resumeDue }) :=
    h.dropPending.noSweep (by simp [Carriage.reset]) (by simp [Carriage.reset])
  exact hlost.stopStall.flushResume

theorem Quiet.dropApproached (h : Quiet s t) : Quiet s (Machine.dropApproached t) := by
  unfold Machine.dropApproached
  split
  · exact h.setRunner
  · exact h.setRunner

theorem Quiet.stall (h : Quiet s t) {pos : Option Nat} : Quiet s (Machine.stall pos t) := by
  have hdrop : Quiet s (if t.carriage.state = .approach then Machine.dropApproached t else t) := by
    split
    · exact h.dropApproached
    · exact h
  have hhalt : ∀ u, Quiet s u → Quiet s (if stallHalts t then Machine.setHeadState .halted u else u) := fun u hu => by
    split
    · exact hu.setHeadState
    · exact hu
  exact (hhalt _ hdrop.carriageLost).raiseFault.giveOwedHoming

theorem Quiet.stallTimerExpiry (h : Quiet s t) : Quiet s (Machine.stallTimerExpiry t) := by
  unfold Machine.stallTimerExpiry
  split
  · exact h.stall.settleTear
  · exact h

theorem Quiet.brakeRampEnd (h : Quiet s t) : Quiet s (Machine.brakeRampEnd t) := by
  unfold Machine.brakeRampEnd
  split
  · exact h.sameSweep
  · exact h

theorem Quiet.finishBraking (h : Quiet s t) : Quiet s (Machine.finishBraking t) := by
  have hrest : Quiet s (Machine.stopStall (t.setCarriage { t.carriage with
      state := if t.carriage.pos.isSome then .idle else .unhomed
      drive := .off
      brake := none })) := by
    refine (h.noSweep ?_ ?_).stopStall <;> dsimp only <;> split <;> simp
  unfold Machine.finishBraking
  refine Quiet.giveOwedHoming ?_
  split
  · exact hrest.setRunner
  · exact hrest.setRunner.setHeadState.latch
  all_goals exact hrest

theorem Quiet.homingStage (h : Quiet s t) {x : Homing} {st : HomingStage} : Quiet s (Machine.homingStage x st t) :=
  h.sameSweep.startStall

theorem Quiet.homingRest (h : Quiet s t) {x : Homing} : Quiet s (Machine.homingRest x t) := by
  unfold Machine.homingRest
  split
  · exact h.homingStage
  · exact h.homingStage
  · split
    · exact h.noSweep.stopStall.latch
    · exact h.homingStage
  · exact h
  · exact h

theorem Quiet.restDetected (h : Quiet s t) : Quiet s (Machine.restDetected t) := by
  unfold Machine.restDetected
  split
  · split
    · split
      · exact h.homingRest.settleTear
      · exact h
    · split
      · exact h.noSweep.stopStall.settleTear
      · exact h.sameSweep.startStall
    · exact h.finishBraking.settleTear
    · exact h
  · exact h

theorem Quiet.homeSensorChange (h : Quiet s t) {b : Bool} : Quiet s (Machine.homeSensorChange b t) := by
  have hpin : Quiet s (t.setPins { t.pins with homeCovered := b }) := h.of_work rfl
  unfold Machine.homeSensorChange
  split
  · exact h
  dsimp only
  split
  · split
    · exact hpin.sameSweep
    · exact hpin.sameSweep
    · exact hpin
  · exact hpin

theorem Quiet.crossLimit (h : Quiet s t) {n : Nat} : Quiet s (Machine.crossLimit n t) := by
  have hlost : Quiet s (t.setCarriage { t.carriage with pos := none }) := h.sameSweep
  unfold Machine.crossLimit
  split
  · exact h.stall
  dsimp only
  split
  · exact hlost.finishBraking
  · exact hlost.noSweep.stopStall.dropApproached.giveOwedHoming
  · exact hlost.noSweep

/-! ### Machine/Driver.lean -/

theorem Quiet.startPending (h : Quiet s t) : Quiet s (Machine.startPending t) := by
  unfold Machine.startPending
  split
  · rename_i hfree
    have hnone : t.driver.running = none := by simp_all
    split
    · exact h
    rename_i ch _
    split
    · exact h
    · rename_i b hb
      refine h.trans { Quiet.refl t with pendA := ?_, pendB := ?_, owed := List.Perm.subperm (.filter _ ?_) }
      · cases ch <;> simp [Driver.setPend]
      · cases ch <;> simp [Driver.setPend]
      · cases ch with
        | a => simp_all [Driver.setPend, Driver.pend]
        | b =>
          have hb : t.driver.pendB = some b := hb
          simpa [Driver.setPend, hnone, hb] using (List.perm_append_singleton _ _).symm
  · exact h

theorem Quiet.haltSweep (h : Quiet s t) : Quiet s (Machine.haltSweep t) := by
  unfold Machine.haltSweep
  split
  · exact h.stopSweep
  · exact h.sameSweep.flushResume
  · exact h.flushResume

theorem Quiet.coolingTick (h : Quiet s t) : Quiet s (Machine.coolingTick t) := by
  have hcool : ∀ x y, Quiet s ((t.setTime x).setHeat y) := fun x y => h.of_work rfl
  unfold Machine.coolingTick
  split
  · dsimp only
    split
    · exact (hcool _ _).setRunner
    · exact hcool _ _
  · exact h

theorem Quiet.coverOpens (h : Quiet s t) : Quiet s (Machine.coverOpens t) := by
  unfold Machine.coverOpens
  split
  · exact h
  · exact h.setPins.suspendTrigger

theorem Quiet.edgeUnplaced (h : Quiet s t) {dir : Dir} : Quiet s (Machine.edgeUnplaced dir t) := by
  have hcount : ∀ x, Quiet s (t.setCarriage { t.carriage with homing := x }) := fun x => h.sameSweep
  unfold Machine.edgeUnplaced
  split
  · dsimp only
    split
    · split
      · exact (hcount _).stall
      · exact hcount _
    · split
      · exact (hcount _).stall
      · exact hcount _
    · exact h
  · exact h

/-! ### Machine/Runner.lean -/

theorem Quiet.afterMasking (h : Quiet s t) : Quiet s (Machine.afterMasking t) := by
  unfold Machine.afterMasking
  split
  · exact h
  split
  · exact h.setRunner
  · exact h.setRunner

theorem Quiet.heatCheck (h : Quiet s t) : Quiet s (Machine.heatCheck t) := by
  have hactive : Quiet s (Machine.setHeadState .active (t.setRunner { t.runner with point := .skipCheck })) :=
    h.setRunner.setHeadState
  unfold Machine.heatCheck
  split
  · dsimp only
    generalize (if t.runner.phase = .coolWait then Config.heatHot else Config.heatNoPlan) = limit
    split
    · exact hactive.setRunner
    · exact hactive.setRunner
  · exact h

theorem Quiet.resumeSuspended (h : Quiet s t) : Quiet s (Machine.resumeSuspended t) := by
  unfold Machine.resumeSuspended
  split
  · exact h.setRunner.setHeadState.afterMasking
  · exact h

theorem Quiet.entryAborted (h : Quiet s t) : Quiet s (Machine.entryAborted t) := by
  unfold Machine.entryAborted
  split
  · exact h.setRunner.latch
  · exact h

/-! ### Requests, the sensor of the paper's end and the window -/

theorem closeEntry_kin {e : Entry} (h : e.state = .opened) : KinBehind Pass.account e (closeEntry e) :=
  ⟨⟨rfl, by simp only [closeEntry, Option.map_map]; rfl, nofun, by simp [h, EntryState.started]⟩, nofun⟩

theorem Quiet.closeOpen (h : Quiet s t) : Quiet s (t.setQueue (Machine.closeOpen t.queue)) := by
  refine h.setQueue (.map (fun e => ?_) _)
  split
  · exact closeEntry_kin ‹_›
  · exact .refl e

theorem Quiet.windowTimerExpiry (h : Quiet s t) : Quiet s (Machine.windowTimerExpiry t) := by
  unfold Machine.windowTimerExpiry
  split
  · exact h.closeOpen.stopWindow.latch
  · exact h

theorem Quiet.paperGone (h : Quiet s t) : Quiet s (Machine.paperGone t) := by
  unfold Machine.paperGone
  split
  · dsimp only
    split
    · exact h.setPins
    · exact (h.setPins.setPaper).latch
  · exact h

theorem Quiet.paperBack (h : Quiet s t) : Quiet s (Machine.paperBack t) := by
  unfold Machine.paperBack
  split
  · exact h
  dsimp only
  split
  · exact h.setPins
  · exact h.setPins.setPaper.settleTear

theorem Quiet.readPaperSensor (h : Quiet s t) : Quiet s (Machine.readPaperSensor t) := by
  unfold Machine.readPaperSensor
  split
  · exact h.setPaper
  split
  · exact h.setPaper.latch
  · exact h.setPaper
  · exact h.setPaper

theorem Quiet.endReset (h : Quiet s t) {b a : Bool} : Quiet s (Machine.endReset b a t) := by
  have hstraps : Quiet s (sampleStraps b a t) := h.of_work
  exact hstraps.readPaperSensor.settleTear

/-! ### The line -/

theorem Quiet.queueReply (h : Quiet s t) {f : List Byte} : Quiet s (Machine.queueReply f t) := h.of_work

theorem Quiet.rejectFrame (h : Quiet s t) {r : Byte} : Quiet s (Machine.rejectFrame r t) := by
  have hclear : Quiet s (clearAssembler t) := h.of_work
  unfold Machine.rejectFrame
  dsimp only
  split
  · exact hclear
  split
  · exact hclear.latch
  · exact hclear.queueReply.latch

theorem Quiet.storeByte (h : Quiet s t) {b : Byte} {a : Assembler} : Quiet s (Machine.storeByte b a t) :=
  h.of_work rfl

theorem Quiet.lengthFault (h : Quiet s t) {b : Byte} : Quiet s (Machine.lengthFault b t) := by
  unfold Machine.lengthFault
  split
  · exact h.rejectFrame
  · exact h

theorem Quiet.lineFault (h : Quiet s t) : Quiet s (Machine.lineFault t) := by
  unfold Machine.lineFault
  split
  · exact h.rejectFrame
  · exact h

theorem Quiet.byteGapTimerExpiry (h : Quiet s t) : Quiet s (Machine.byteGapTimerExpiry t) := by
  unfold Machine.byteGapTimerExpiry
  split
  · exact h.rejectFrame
  · exact h

end

end Sys2Proof.Machine
end

section
/-! The account of the dots in words, and what keeps it. -/

namespace Sys2Proof.Machine

/-! ## The account -/

/-- The channel and the column of each burst that still owes dots. -/
def owedKeys (s : State) : List (Chan × Nat) := (owedBursts s).map fun x => (x.1.chan, x.1.column)

/-- The pairs to come of a burst are dots of the pass that are outstanding, each once. -/
def Owes (pool : Pool) (p : Pass) (x : Burst × List (Nat × Nat)) : Prop :=
  (x.2.map Prod.fst).Nodup ∧ ∀ y ∈ x.2, (chanOutstanding pool p x.1.chan x.1.column).getLsbD y.1 = true

/-- The head entry has been taken up. -/
def HeadStarted (s : State) : Prop := ∃ e, s.queue.head? = some e ∧ e.state.started = true

/-- The head entry has been taken up and has no dot outstanding. -/
def HeadSpent (s : State) : Prop :=
  ∃ e, s.queue.head? = some e ∧ e.state.started = true ∧ ∀ p, e.pass = some p → anyOutstanding s.pool p = false

/-- The pairs to come of a burst are outstanding dots of the head, a print entry that has been taken up. -/
def HeadOwes (s : State) (x : Burst × List (Nat × Nat)) : Prop :=
  ∃ e p, s.queue.head? = some e ∧ e.state.started = true ∧ e.pass = some p ∧ Owes s.pool p x

/-- The account of the dots, field by field (spec/02 R23, spec/03 R69, spec/10 R200). -/
structure Account (s : State) : Prop where
  counted : ∀ e ∈ s.queue, ∀ p, e.pass = some p →
    passCounted s.pool p = true ∧ (e.state = .opened → p.suppressed = none)
  pendA : ∀ b, s.driver.pendA = some b → b.chan = .a
  pendB : ∀ b, s.driver.pendB = some b → b.chan = .b
  owed : ∀ x ∈ owedBursts s, HeadOwes s x
  apart : (owedKeys s).Nodup
  sweep : sweeping s = true → HeadStarted s ∧ s.runner.headPlan = none ∧ advancingHead s = false
    ∧ ∀ ch, (columnsLeft s ch).Nodup ∧ ∀ c ∈ columnsLeft s ch, (ch, c) ∉ owedKeys s
  headPlan : ∀ p, s.runner.headPlan = some p → p.listsSound = true ∧ owedBursts s = []
  lookAhead : ∀ p, s.runner.lookAhead = some p → p.listsSound = true
  advance : advancingHead s = true → s.runner.phase ≠ .prep ∧ HeadSpent s

theorem entriesCounted_iff (s : State) : entriesCounted s = true ↔ ∀ e ∈ s.queue, ∀ p, e.pass = some p →
    passCounted s.pool p = true ∧ (e.state = .opened → p.suppressed = none) := by
  simp only [entriesCounted, List.all_eq_true, Option.all_eq_true, Bool.and_eq_true, Bool.or_eq_true, bne_iff_ne,
    Option.isNone_iff_eq_none, ne_eq, imp_iff_not_or]

theorem burstOwed_iff (s : State) (x : Burst × List (Nat × Nat)) : burstOwed s x = true ↔ HeadOwes s x := by
  simp only [burstOwed, HeadOwes, Owes, Option.any_eq_true, Bool.and_eq_true, List.all_eq_true, decide_eq_true_eq]
  constructor
  · rintro ⟨e, he, hs, p, hp, howes⟩
    exact ⟨e, p, he, hs, hp, howes⟩
  · rintro ⟨e, p, he, hs, hp, howes⟩
    exact ⟨e, he, hs, p, hp, howes⟩

theorem burstsSound_iff (s : State) : burstsSound s = true ↔ (∀ b, s.driver.pendA = some b → b.chan = .a)
    ∧ (∀ b, s.driver.pendB = some b → b.chan = .b)
    ∧ (∀ x ∈ owedBursts s, HeadOwes s x)
    ∧ (owedKeys s).Nodup := by
  simp only [burstsSound, Bool.and_eq_true, Option.all_eq_true, List.all_eq_true, burstOwed_iff, decide_eq_true_eq,
    beq_iff_eq, owedKeys, List.Nodup, List.pairwise_map, and_assoc]

theorem channelSound_iff (s : State) (ch : Chan) (c : Channel) : channelSound s ch c = true ↔
    ((c.list.drop c.next).map Elem.column).Nodup
      ∧ ∀ k ∈ (c.list.drop c.next).map Elem.column, (ch, k) ∉ owedKeys s := by
  simp only [channelSound, Bool.and_eq_true, decide_eq_true_eq, List.all_eq_true, Bool.or_eq_true, bne_iff_ne,
    Bool.not_eq_true', ← Bool.not_eq_true, List.contains_iff_mem, owedKeys, List.mem_map, Prod.mk.injEq, not_exists,
    not_and]
  refine and_congr_right fun _ => ⟨fun h k hk x hx hch hcol => ?_, fun h x hx => ?_⟩
  · rcases h x hx with hne | hne
    · exact hne hch
    · exact hk.elim fun y hy => hne y hy.1 (hy.2.trans hcol.symm)
  · by_cases hch : x.1.chan = ch
    · exact .inr fun y hy hcol => h _ ⟨y, hy, rfl⟩ x hx hch hcol.symm
    · exact .inl hch

theorem headStarted_iff (s : State) : s.queue.head?.any (fun e => e.state.started) = true ↔ HeadStarted s :=
  Option.any_eq_true ..

theorem headSpent_iff (s : State) : s.queue.head?.any (fun e =>
    e.state.started && e.pass.all (fun p => !anyOutstanding s.pool p)) = true ↔ HeadSpent s := by
  simp [HeadSpent, Option.any_eq_true, Option.all_eq_true]

theorem workSound_iff (s : State) : workSound s = true ↔
    (sweeping s = true → HeadStarted s ∧ s.runner.headPlan = none ∧ advancingHead s = false
      ∧ ∀ ch, (columnsLeft s ch).Nodup ∧ ∀ c ∈ columnsLeft s ch, (ch, c) ∉ owedKeys s)
    ∧ (∀ p, s.runner.headPlan = some p → p.listsSound = true ∧ owedBursts s = [])
    ∧ (∀ p, s.runner.lookAhead = some p → p.listsSound = true)
    ∧ (advancingHead s = true → s.runner.phase ≠ .prep ∧ HeadSpent s) := by
  have hchan : ∀ P : Chan → Prop, (∀ ch, P ch) ↔ P .a ∧ P .b := fun P =>
    ⟨fun h => ⟨h .a, h .b⟩, fun h ch => by cases ch; exacts [h.1, h.2]⟩
  have hsweep : (s.carriage.state == .runup || s.carriage.state == .sweep) = sweeping s := rfl
  simp only [workSound, hsweep, Bool.and_eq_true, Bool.or_eq_true, Bool.not_eq_true', headStarted_iff, headSpent_iff,
    channelSound_iff, Option.all_eq_true, Option.isNone_iff_eq_none, List.isEmpty_iff, bne_iff_ne, hchan, columnsLeft,
    ← Bool.not_eq_true, ← imp_iff_not_or, and_assoc]

theorem dotsSound_iff (s : State) : dotsSound s = true ↔ Account s := by
  simp only [dotsSound, Bool.and_eq_true, entriesCounted_iff, burstsSound_iff, workSound_iff]
  constructor
  · rintro ⟨⟨hcounted, hA, hB, howed, hapart⟩, hsweep, hplan, hahead, hadvance⟩
    exact ⟨hcounted, hA, hB, howed, hapart, hsweep, hplan, hahead, hadvance⟩
  · rintro ⟨hcounted, hA, hB, howed, hapart, hsweep, hplan, hahead, hadvance⟩
    exact ⟨⟨hcounted, hA, hB, howed, hapart⟩, hsweep, hplan, hahead, hadvance⟩

/-! ## Passes that count alike -/

section
variable {p q : Pass} {pool : Pool}

/-- The counters of a pass, its masks and what the pool holds of it do not depend on its bookkeeping. -/
theorem passCounted_account (h : q.account = p.account) : passCounted pool q = passCounted pool p :=
  (show passCounted pool q.account = passCounted pool p.account by rw [h])

theorem suppressed_account (h : q.account = p.account) : q.suppressed = p.suppressed :=
  (congrArg Pass.suppressed h :)

theorem chanOutstanding_account (h : q.account = p.account) (ch : Chan) (c : Nat) :
    chanOutstanding pool q ch c = chanOutstanding pool p ch c :=
  (show chanOutstanding pool q.account ch c = chanOutstanding pool p.account ch c by rw [h])

theorem anyOutstanding_account (h : q.account = p.account) : anyOutstanding pool q = anyOutstanding pool p :=
  (show anyOutstanding pool q.account = anyOutstanding pool p.account by rw [h])

theorem Owes.account {x : Burst × List (Nat × Nat)} (hx : Owes pool p x) (h : q.account = p.account) :
    Owes pool q x :=
  ⟨hx.1, fun y hy => by rw [chanOutstanding_account h]; exact hx.2 y hy⟩

end

theorem Kin.pass_some {α : Type} {view : Pass → α} {e f : Entry} (h : Kin view e f) {p : Pass} (hp : e.pass = some p) :
    ∃ q, f.pass = some q ∧ view q = view p := by
  have hpass := h.pass
  rw [hp] at hpass
  exact Option.map_eq_some_iff.1 hpass

theorem Kin.pass_some' {α : Type} {view : Pass → α} {e f : Entry} (h : Kin view e f) {q : Pass} (hq : f.pass = some q) :
    ∃ p, e.pass = some p ∧ view q = view p := by
  have hpass := h.pass
  rw [hq] at hpass
  obtain ⟨p, hp, heq⟩ := Option.map_eq_some_iff.1 hpass.symm
  exact ⟨p, hp, heq.symm⟩

theorem subperm_map {α β : Type} {l m : List α} (h : l.Subperm m) (f : α → β) : (l.map f).Subperm (m.map f) := by
  obtain ⟨x, hperm, hsub⟩ := h
  exact ⟨_, hperm.map _, hsub.map _⟩

theorem nodup_of_subperm {α : Type} {l m : List α} (h : l.Subperm m) (hm : m.Nodup) : l.Nodup := by
  obtain ⟨x, hperm, hsub⟩ := h
  exact hperm.nodup_iff.1 (hm.sublist hsub)

theorem Quiet.keys {s t : State} (h : Quiet s t) : (owedKeys t).Subperm (owedKeys s) := subperm_map h.owed _

theorem Quiet.keysNodup {s t : State} (h : Quiet s t) (hs : (owedKeys s).Nodup) : (owedKeys t).Nodup :=
  nodup_of_subperm h.keys hs

theorem Quiet.headStarted {s t : State} (h : Quiet s t) (hs : HeadStarted s) : HeadStarted t := by
  obtain ⟨e, he, hstart⟩ := hs
  obtain ⟨f, hf, k⟩ := h.queue.head he
  exact ⟨f, hf, k.started hstart⟩

/-- A quiet act keeps the account. -/
theorem Quiet.account {s t : State} (h : Quiet s t) (a : Account s) : Account t where
  counted f hf q hq := by
    obtain ⟨e, he, k⟩ := h.queue.mem hf
    obtain ⟨p, hp, hpq⟩ := k.pass_some' hq
    obtain ⟨hcount, hopen⟩ := a.counted e he p hp
    rw [h.pool, passCounted_account hpq, suppressed_account hpq]
    exact ⟨hcount, fun ho => hopen (k.opened ho)⟩
  pendA b hb := by
    rcases h.pendA with hA | hA <;> rw [hA] at hb
    · cases hb
    · exact a.pendA b hb
  pendB b hb := by
    rcases h.pendB with hB | hB <;> rw [hB] at hb
    · cases hb
    · exact a.pendB b hb
  owed x hx := by
    obtain ⟨e, p, he, hs, hp, howes⟩ := a.owed x (h.owed.subset hx)
    obtain ⟨f, hf, k⟩ := h.queue.head he
    obtain ⟨q, hq, hpq⟩ := k.pass_some hp
    exact ⟨f, q, hf, k.started hs, hq, h.pool ▸ howes.account hpq⟩
  apart := h.keysNodup a.apart
  sweep ht := by
    obtain ⟨hs, hcols⟩ := h.sweep ht
    obtain ⟨hstart, hplan, hadv, hchan⟩ := a.sweep hs
    refine ⟨h.headStarted hstart, ?_, ?_, fun ch => ?_⟩
    · rcases h.headPlan with hp | hp
      · exact hp
      · exact hp.trans hplan
    · exact Bool.eq_false_iff.2 fun ha => Bool.eq_false_iff.1 hadv (h.advance ha).1
    · rw [hcols ch]
      exact ⟨(hchan ch).1, fun c hc hk => (hchan ch).2 c hc (h.keys.subset hk)⟩
  headPlan p hp := by
    rcases h.headPlan with hn | hn <;> rw [hn] at hp
    · cases hp
    · obtain ⟨hlists, hnone⟩ := a.headPlan p hp
      have := h.owed
      rw [hnone] at this
      exact ⟨hlists, List.subperm_nil.1 this⟩
  lookAhead p hp := by
    rcases h.lookAhead with hn | hn <;> rw [hn] at hp
    · cases hp
    · exact a.lookAhead p hp
  advance ht := by
    obtain ⟨hs, hphase⟩ := h.advance ht
    obtain ⟨hne, e, he, hstart, hspent⟩ := a.advance hs
    obtain ⟨f, hf, k⟩ := h.queue.head he
    refine ⟨fun hp => hne (hphase hp), f, hf, k.started hstart, fun q hq => ?_⟩
    obtain ⟨p, hp, hpq⟩ := k.pass_some' hq
    rw [h.pool, anyOutstanding_account hpq]
    exact hspent p hp

/-! ## What an act keeps -/

/-- From one state to another the queue, the completion list, the pool and the account of the dots stay sound. -/
structure Keeps (s t : State) : Prop extends Preserves s t where
  dots : queueSound s = true → poolSound s = true → Account s → Account t

theorem Keeps.refl (s : State) : Keeps s s := ⟨.refl s, fun _ _ => id⟩

theorem Keeps.trans {s t u : State} (h : Keeps s t) (h' : Keeps t u) : Keeps s u :=
  ⟨h.toPreserves.trans h'.toPreserves, fun hq hp ha => h'.dots (h.queue hq) (h.pool hq hp) (h.dots hq hp ha)⟩

theorem Quiet.keeps {s t : State} (h : Quiet s t) : Keeps s t := ⟨h.kept.preserves, fun _ _ => h.account⟩

theorem Keeps.quiet {s t u : State} (h : Keeps s t) (h' : Quiet t u) : Keeps s u := h.trans h'.keeps

end Sys2Proof.Machine
end

section
/-! Entries that leave the queue: retirement and the ends of a paper motion. -/

namespace Sys2Proof.Machine

/-! ## A queue that changes while nothing is due to its head -/

/-- No burst owes a dot, no sweep is prepared or runs, and no advance of the head is in flight. -/
structure NothingDue (s : State) : Prop where
  owed : owedBursts s = []
  sweep : sweeping s = false
  advance : advancingHead s = false

theorem passCounted_agree {pool pool' : Pool} {p : Pass} (h : Agree pool pool' (p.slots.filterMap id)) :
    passCounted pool' p = passCounted pool p := by
  simp only [passCounted, sumRows, passColumn_agree h]

theorem chanOutstanding_agree {pool pool' : Pool} {p : Pass} (h : Agree pool pool' (p.slots.filterMap id)) (ch : Chan)
    (c : Nat) : chanOutstanding pool' p ch c = chanOutstanding pool p ch c := by
  simp only [chanOutstanding, outstanding, passColumn_agree h]

theorem anyOutstanding_agree {pool pool' : Pool} {p : Pass} (h : Agree pool pool' (p.slots.filterMap id)) :
    anyOutstanding pool' p = anyOutstanding pool p := by
  simp only [anyOutstanding, outstanding, passColumn_agree h]

/-- A head that has no dot outstanding is owed none. -/
theorem Account.nothing_owed {s : State} (a : Account s) (h : HeadSpent s) : owedBursts s = [] := by
  refine List.eq_nil_iff_forall_not_mem.2 fun x hx => ?_
  obtain ⟨e, p, he, -, hp, -, hrows⟩ := a.owed x hx
  obtain ⟨e', he', -, hspent⟩ := h
  obtain rfl := Option.some.inj (he.symm.trans he')
  have hsome : x.2 ≠ [] := by
    have := (List.mem_filter.1 hx).2
    simp_all
  obtain ⟨y, hy⟩ := List.exists_mem_of_ne_nil _ hsome
  have hany : anyOutstanding s.pool p = true := (anyOutstanding_iff _ _).2
    ⟨x.1.chan, x.1.column, fun hzero => by simpa [hzero] using hrows y hy⟩
  exact Bool.false_ne_true ((hspent p hp).symm.trans hany)

/-- While its advance is in flight nothing else is due to the head. -/
theorem Account.of_advancing {s : State} (a : Account s) (h : advancingHead s = true) :
    owedBursts s = [] ∧ sweeping s = false := by
  refine ⟨a.nothing_owed (a.advance h).2, Bool.eq_false_iff.2 fun hs => ?_⟩
  obtain ⟨-, -, hadv, -⟩ := a.sweep hs
  exact Bool.false_ne_true (hadv.symm.trans h)

/-- Nothing is due to a head that has not been taken up. -/
theorem Account.of_not_started {s : State} (a : Account s) (h : ¬HeadStarted s) : NothingDue s where
  owed := List.eq_nil_iff_forall_not_mem.2 fun x hx => by
    obtain ⟨e, p, he, hs, -⟩ := a.owed x hx
    exact h ⟨e, he, hs⟩
  sweep := Bool.eq_false_iff.2 fun hs => h (a.sweep hs).1
  advance := Bool.eq_false_iff.2 fun ha => by
    obtain ⟨-, e, he, hs, -⟩ := a.advance ha
    exact h ⟨e, he, hs⟩

/-- The account holds of a changed queue whose entries are counted, when nothing is owed to the head or the head and its
image stay as they are. -/
theorem Account.requeue {s t : State} (a : Account s)
    (hcounted : ∀ e ∈ t.queue, ∀ p, e.pass = some p →
      passCounted t.pool p = true ∧ (e.state = .opened → p.suppressed = none))
    (hdriver : t.driver = s.driver) (hcar : t.carriage = s.carriage) (hmotion : t.paper.motion = s.paper.motion)
    (hplan : t.runner.headPlan = none ∨ t.runner.headPlan = s.runner.headPlan)
    (hahead : ∀ p, t.runner.lookAhead = some p → p.listsSound = true)
    (hphase : t.runner.phase = .prep → s.runner.phase = .prep)
    (hhead : owedBursts s = [] ∧ advancingHead s = false ∧ (sweeping s = true → HeadStarted t)
      ∨ ∃ e, s.queue.head? = some e ∧ t.queue.head? = some e ∧ Agree s.pool t.pool e.blocks) : Account t := by
  have howed : owedBursts t = owedBursts s := by simp [owedBursts, hdriver]
  have hkeys : owedKeys t = owedKeys s := by rw [owedKeys, howed]; rfl
  have hadv : advancingHead t = advancingHead s := by simp [advancingHead, hmotion]
  have hswp : sweeping t = sweeping s := by simp [sweeping, hcar]
  have hcols : ∀ ch, columnsLeft t ch = columnsLeft s ch := fun ch => by cases ch <;> simp [columnsLeft, hcar]
  have hplan' : ∀ p, t.runner.headPlan = some p → s.runner.headPlan = some p := fun p hp => by
    rcases hplan with h | h <;> rw [h] at hp
    · cases hp
    · exact hp
  refine ⟨hcounted, hdriver ▸ a.pendA, hdriver ▸ a.pendB, ?_, hkeys ▸ a.apart, fun hs => ?_, fun p hp => ?_, hahead,
    fun ht => ?_⟩
  · rw [howed]
    intro x hx
    rcases hhead with ⟨hnone, -, -⟩ | ⟨e, he, he', hagree⟩
    · simp [hnone] at hx
    · obtain ⟨e₀, p, he₀, hstart, hp, hrows, hout⟩ := a.owed x hx
      obtain rfl := Option.some.inj (he.symm.trans he₀)
      rw [Entry.blocks_of_pass hp] at hagree
      exact ⟨e, p, he', hstart, hp, hrows, fun y hy => by rw [chanOutstanding_agree hagree]; exact hout y hy⟩
  · rw [hswp] at hs
    obtain ⟨⟨e₀, he₀, hstart⟩, hnone, hno, hchan⟩ := a.sweep hs
    refine ⟨?_, ?_, hadv.trans hno, fun ch => by rw [hcols, hkeys]; exact hchan ch⟩
    · rcases hhead with ⟨-, -, hstarted⟩ | ⟨e, he, he', -⟩
      · exact hstarted hs
      · obtain rfl := Option.some.inj (he.symm.trans he₀)
        exact ⟨e, he', hstart⟩
    · rcases hplan with h | h
      · exact h
      · exact h.trans hnone
  · rw [howed]
    exact a.headPlan p (hplan' p hp)
  · rw [hadv] at ht
    rcases hhead with ⟨-, hno, -⟩ | ⟨e, he, he', hagree⟩
    · exact absurd (hno.symm.trans ht) Bool.false_ne_true
    · obtain ⟨hne, e₀, he₀, hstart, hspent⟩ := a.advance ht
      obtain rfl := Option.some.inj (he.symm.trans he₀)
      refine ⟨fun hp => hne (hphase hp), e, he', hstart, fun p hp => ?_⟩
      rw [Entry.blocks_of_pass hp] at hagree
      exact (anyOutstanding_agree hagree).trans (hspent p hp)

/-! ## An entry that leaves -/

/-- An entry leaves the queue and gives back its blocks; the others keep their order. -/
theorem preserves_leave {s t : State} {e : Entry} (hperm : queueSound s = true → s.queue.Perm (e :: t.queue))
    (hsub : t.queue.Sublist s.queue) (hpool : t.pool = s.pool.releaseAll e.slots)
    (hrec : recordsSound s = true → recordsSound t = true) : Preserves s t where
  queue hq := by
    obtain ⟨hlen, htags, hopen⟩ := (queueSound_iff s).1 hq
    exact (queueSound_iff t).2
      ⟨hsub.length_le.trans hlen, htags.sublist (hsub.map _), hsub.countP_le.trans hopen⟩
  head hh := by
    rw [headOnlySound_iff] at hh ⊢
    exact fun f hf => hh f (hsub.tail.subset hf)
  records := hrec
  pool hq hp := by
    obtain ⟨hwf, hpass, hshared⟩ := (poolSound_iff s).1 hp
    have hheld := hshared.perm (heldBlocks_perm (hperm hq))
    rw [heldBlocks_cons] at hheld
    refine (poolSound_iff t).2 ⟨hpool ▸ Pool.releaseAll_wf hwf _, fun f hf => hpass f (hsub.subset hf), ?_⟩
    rw [hpool]
    exact Shared.releaseAll hheld

/-- The images of the others stay as they are when an entry leaves. -/
theorem agree_leave {s : State} {e : Entry} {rest : List Entry} (hperm : s.queue.Perm (e :: rest))
    (hp : poolSound s = true) {f : Entry} (hf : f ∈ rest) : Agree s.pool (s.pool.releaseAll e.slots) f.blocks := by
  obtain ⟨-, -, hshared⟩ := (poolSound_iff s).1 hp
  have hheld := (hshared.perm (heldBlocks_perm hperm)).1
  rw [heldBlocks_cons] at hheld
  exact agree_releaseAll fun b hb hb' => (List.nodup_append.1 hheld).2.2 b hb b (mem_heldBlocks.2 ⟨f, hf, hb'⟩) rfl

/-- The others are counted as they were. -/
theorem counted_leave {s : State} {e : Entry} {rest : List Entry} (a : Account s) (hperm : s.queue.Perm (e :: rest))
    (hp : poolSound s = true) : ∀ f ∈ rest, ∀ p, f.pass = some p →
      passCounted (s.pool.releaseAll e.slots) p = true ∧ (f.state = .opened → p.suppressed = none) := by
  intro f hf p hfp
  have hagree := agree_leave hperm hp hf
  rw [Entry.blocks_of_pass hfp] at hagree
  rw [passCounted_agree hagree]
  exact a.counted f (hperm.mem_iff.2 (.tail _ hf)) p hfp

/-! ## Retirement -/

theorem preserves_retire (s : State) : Preserves s (retire s) := by
  cases h : s.queue with
  | nil => rw [retire_nil h]; exact .refl s
  | cons e rest =>
    rw [retire_cons h]
    refine preserves_leave (e := e) (fun _ => h ▸ .refl _) (h ▸ List.sublist_cons_self e rest) rfl fun _ => ?_
    exact (recordsSound_iff _).2 (pushRecord_length _ _)

theorem account_retire {s : State} (hp : poolSound s = true) (a : Account s) (h : NothingDue s) :
    Account (retire s) := by
  cases hq : s.queue with
  | nil => rw [retire_nil hq]; exact a
  | cons e rest =>
    rw [retire_cons hq]
    refine a.requeue (counted_leave a (hq ▸ .refl _) hp) rfl rfl rfl (.inl rfl) a.lookAhead nofun
      (.inl ⟨h.owed, h.advance, fun hs => ?_⟩)
    exact absurd (h.sweep.symm.trans hs) Bool.false_ne_true

theorem Keeps.retire {s t : State} (h : Keeps s t) (hdue : Account s → NothingDue t) : Keeps s (Machine.retire t) :=
  ⟨h.toPreserves.trans (preserves_retire t), fun hq hp a =>
    account_retire (h.pool hq hp) (h.dots hq hp a) (hdue a)⟩

theorem quiet_setRemaining (x : Option Int) (s : State) : Quiet s (mapHead (fun e => { e with remaining := x }) s) :=
  (Quiet.refl s).mapHead fun _ => ⟨rfl, rfl, id, id⟩

theorem preserves_writeRemaining (left : Int) (s : State) : Preserves s (writeRemaining left s) := by
  unfold writeRemaining
  split
  · exact (quiet_setRemaining _ s).kept.preserves.trans (preserves_retire _)
  · exact (quiet_setRemaining _ s).kept.preserves

/-- What is due to the head does not depend on its entry. -/
theorem NothingDue.of_blocks {s t : State} (h : NothingDue s) (hd : t.driver = s.driver) (hc : t.carriage = s.carriage)
    (hm : t.paper.motion = s.paper.motion) : NothingDue t :=
  ⟨by simpa [owedBursts, hd] using h.owed, by simpa [sweeping, hc] using h.sweep,
    by simpa [advancingHead, hm] using h.advance⟩

theorem Keeps.writeRemaining {s t : State} (h : Keeps s t) {left : Int} (hdue : Account s → NothingDue t) :
    Keeps s (Machine.writeRemaining left t) := by
  unfold Machine.writeRemaining
  split
  · exact (h.quiet (quiet_setRemaining _ t)).retire fun a => (hdue a).of_blocks (by simp) (by simp) (by simp)
  · exact h.quiet (quiet_setRemaining _ t)

/-! ## The ends of a motion -/

theorem advancingHead_of_motion {s : State} {m : Motion} {tag : Byte} (hm : s.paper.motion = some m)
    (hp : m.purpose = .entryAdvance tag) (ha : m.aborted = false) : advancingHead s = true := by
  simp [advancingHead, hm, hp, ha]

/-- The head's advance comes to rest: what is left of it is written, or the entry retires. -/
theorem Keeps.endAdvance {s t : State} (h : Quiet s t) {m : Motion} {tag : Byte} (hm : s.paper.motion = some m)
    (hp : m.purpose = .entryAdvance tag) (ha : m.aborted = false) {st : PaperState} {left : Int} :
    Keeps s (Machine.writeRemaining left (restPaper st t)) := by
  refine h.restPaper.keeps.writeRemaining fun a => ?_
  obtain ⟨hnone, hsweep⟩ := a.of_advancing (advancingHead_of_motion hm hp ha)
  refine ⟨?_, Bool.eq_false_iff.2 fun hs => ?_, rfl⟩
  · have := h.restPaper (st := st).owed
    rwa [hnone, List.subperm_nil] at this
  · exact Bool.false_ne_true (hsweep.symm.trans (h.restPaper.sweep hs).1)

theorem keeps_paperEndStop {s t : State} (h : Quiet s t) {m m' : Motion} (hm : s.paper.motion = some m)
    (hp : m'.purpose = m.purpose) (ha : m'.aborted = m.aborted) : Keeps s (paperEndStop m' t) := by
  have hpause : Quiet s (setPause true (latch .paperOutStop t)) := h.latch.setPause
  unfold paperEndStop
  dsimp only
  split
  · exact hpause.parkAt.latch.keeps
  · rename_i tag htag
    split
    · exact hpause.restPaper.keeps
    · rename_i hgoing
      exact .endAdvance hpause hm (hp.symm.trans htag) (by simpa [ha] using hgoing)
  · exact hpause.restPaper.keeps
  · exact hpause.restPaper.keeps

theorem keeps_feedUnit (s : State) : Keeps s (feedUnit s) := by
  unfold feedUnit
  split
  · exact .refl s
  rename_i m hm
  split
  · have hunit : Quiet s (issueUnit m s) := (Quiet.refl s).issueUnit hm
    dsimp only
    split
    · exact hunit.keeps
    rename_i m' hm'
    split
    · have hmoved : m' = { m with
          moved := m.moved + 1, stop := m.stop.map (fun x => { x with ramp := x.ramp - 1 }) } := by
        rw [← Option.some.inj hm']
      refine (keeps_paperEndStop hunit hm (by rw [hmoved]) ?_).quiet (Quiet.refl _).settleTear
      rw [hmoved]
      cases hs : m.stop <;> simp [Motion.aborted, hs]
    · exact hunit.keeps
  · exact .refl s

theorem keeps_completeMotion {s : State} {m : Motion} (hm : s.paper.motion = some m) (hs : m.stop = none) :
    Keeps s (completeMotion m s) := by
  have h := Quiet.refl s
  unfold completeMotion
  split
  · exact h.parkAt.latch.keeps
  · exact .endAdvance h hm ‹_› (by simp [Motion.aborted, hs])
  · exact h.restPaper.prepCheck.keeps
  · exact (h.restPaper.firstPhase rfl).keeps

theorem keeps_endStopped {s : State} {m : Motion} (hm : s.paper.motion = some m) : Keeps s (endStopped m s) := by
  have h := Quiet.refl s
  unfold endStopped
  split
  · exact h.parkAt.latch.keeps
  · split
    · exact h.restPaper.keeps
    · exact .endAdvance h hm ‹_› (by simp_all)
  · exact h.restPaper.keeps
  · split
    · exact h.parkAt.keeps
    split
    · exact h.restPaper.keeps
    · exact (h.restPaper.firstPhase rfl).keeps

theorem keeps_paperMotionComplete (s : State) : Keeps s (paperMotionComplete s) := by
  unfold paperMotionComplete
  split
  · exact .refl s
  rename_i m hm
  split
  · exact (keeps_endStopped hm).quiet (Quiet.refl _).giveRetract.settleTear
  split
  · refine (keeps_completeMotion hm ?_).quiet (Quiet.refl _).giveRetract.settleTear
    simp_all
  · exact .refl s

/-! ## The order for the head's advance -/

theorem preserves_takeOrder (p : Purpose) (d : Int) (s : State) : Preserves s (takeOrder p d s) := by
  cases p with
  | entryAdvance tag =>
    unfold takeOrder
    split
    · exact preserves_writeRemaining _ _
    dsimp only
    split
    · exact (Quiet.refl s).latch.setPause.restPaper.kept.preserves.trans (preserves_writeRemaining _ _)
    · refine Kept.preserves ?_
      exact ⟨.refl _, rfl, id, id⟩
  | skip => exact ((Quiet.refl s).takeOrder (p := .skip) nofun).kept.preserves
  | retract => exact ((Quiet.refl s).takeOrder (p := .retract) nofun).kept.preserves
  | tear => exact ((Quiet.refl s).takeOrder (p := .tear) nofun).kept.preserves

/-- The head's advance is ordered when nothing else is due to the head, which is past PREP with no dot outstanding. -/
theorem account_orderAdvance {s : State} {tag : Byte} {d : Int} (hq : queueSound s = true) (hp : poolSound s = true)
    (a : Account s) (hdue : NothingDue s) (hphase : s.runner.phase ≠ .prep) (hspent : HeadSpent s) :
    Account (takeOrder (.entryAdvance tag) d s) := by
  have h := Quiet.refl s
  unfold takeOrder
  split
  · exact (h.keeps.writeRemaining fun _ => hdue).dots hq hp a
  dsimp only
  split
  · have hrest : Keeps s (restPaper .out (setPause true (latch .paperOutStop s))) := h.latch.setPause.restPaper.keeps
    exact (hrest.writeRemaining fun _ => ⟨hdue.owed, hdue.sweep, rfl⟩).dots hq hp a
  · exact { a with
      sweep := fun hs => absurd (hdue.sweep.symm.trans hs) Bool.false_ne_true
      advance := fun _ => ⟨hphase, hspent⟩ }

end Sys2Proof.Machine
end

section
/-! Marks: how the dots of a column are counted, fired and lost. -/

namespace Sys2Proof.Machine

/-! ## Counting rows -/

theorem rows_eq_zero_iff (x : Rows) : x = 0#24 ↔ ∀ i, x.getLsbD i = false :=
  ⟨fun h i => by simp [h], fun h => BitVec.eq_of_getLsbD_eq fun i _ => by simp [h i]⟩

theorem rowCount_zero : rowCount 0#24 = 0 := by decide

/-- Rows of disjoint sets are counted apart. -/
theorem rowCount_or {x y : Rows} (h : ∀ i, x.getLsbD i = true → y.getLsbD i = false) :
    rowCount (x ||| y) = rowCount x + rowCount y := by
  have key : ∀ l : List Nat, l.countP (fun k => (x ||| y).getLsbD k)
      = l.countP (fun k => x.getLsbD k) + l.countP (fun k => y.getLsbD k) := fun l => by
    induction l with
    | nil => rfl
    | cons k t ih =>
      have hk := h k
      simp only [List.countP_cons, BitVec.getLsbD_or] at ih ⊢
      cases hx : x.getLsbD k <;> cases hy : y.getLsbD k <;> simp_all <;> omega
  exact key _

theorem pairRows_getLsbD (pairs : List (Nat × Nat)) (i : Nat) :
    (pairRows pairs).getLsbD i = true ↔ i < 24 ∧ i ∈ pairs.map Prod.fst := by
  have key : ∀ (l : List (Nat × Nat)) (acc : Rows), (l.foldl (fun acc x => acc ||| BitVec.twoPow 24 x.1) acc).getLsbD i
      = true ↔ acc.getLsbD i = true ∨ i < 24 ∧ i ∈ l.map Prod.fst := fun l => by
    induction l with
    | nil => simp
    | cons x t ih =>
      intro acc
      simp only [List.foldl_cons, ih, BitVec.getLsbD_or, BitVec.getLsbD_twoPow, Bool.or_eq_true, Bool.and_eq_true,
        decide_eq_true_eq, List.map_cons, List.mem_cons]
      have hx : x.1 < 24 ∧ x.1 = i ↔ i < 24 ∧ i = x.1 := by
        rw [eq_comm (a := i)]
        exact and_congr_left fun h => by rw [h]
      rw [hx, or_assoc, and_or_left]
  simpa [pairRows] using key pairs 0#24

theorem rowCount_pairRows {pairs : List (Nat × Nat)} (hnodup : (pairs.map Prod.fst).Nodup)
    (hlt : ∀ i ∈ pairs.map Prod.fst, i < 24) : rowCount (pairRows pairs) = pairs.length := by
  have hperm : ((List.range 24).filter fun k => (pairRows pairs).getLsbD k).Perm (pairs.map Prod.fst) := by
    refine (List.perm_ext_iff_of_nodup (List.nodup_range.filter _) hnodup).2 fun i => ?_
    rw [List.mem_filter, List.mem_range, pairRows_getLsbD]
    exact ⟨fun h => h.2.2, fun h => ⟨hlt i h, hlt i h, h⟩⟩
  rw [rowCount, List.countP_eq_length_filter, hperm.length_eq, List.length_map]

/-- A sum in which one term grows. -/
theorem sum_range_update {n i k : Nat} (hi : i < n) {g g' : Nat → Nat}
    (h : ∀ d, g' d = if d = i then g i + k else g d) :
    ((List.range n).map g').sum = ((List.range n).map g).sum + k := by
  induction n with
  | zero => omega
  | succ n ih =>
    rw [List.range_succ, List.map_append, List.map_append, List.sum_append, List.sum_append]
    by_cases hin : i = n
    · have hrest : (List.range n).map g' = (List.range n).map g :=
        List.map_congr_left fun d hd => by rw [h, if_neg (by have := List.mem_range.1 hd; omega)]
      simp [hrest, h, hin]; omega
    · rw [ih (by omega)]
      simp [h, Ne.symm hin]; omega

/-! ## Marks of a column -/

/-- The two marks of a dot (spec/02 R23). -/
inductive Mark where
  | fired
  | lost

/-- Mark some rows of a column. -/
def Mark.put : Mark → Rows → Column → Column
  | .fired, r, c => { c with fired := c.fired ||| r }
  | .lost, r, c => { c with lost := c.lost ||| r }

/-- Count some marks to a pass. -/
def Mark.count : Mark → Nat → Pass → Pass
  | .fired, n, p => { p with dotsFired := p.dotsFired + n }
  | .lost, n, p => { p with dotsLost := p.dotsLost + n }

/-- The rows of a column that are neither suppressed nor marked. -/
def Column.left (sup : Rows) (c : Column) : Rows := c.dots &&& ~~~sup &&& ~~~c.fired &&& ~~~c.lost

theorem Column.left_getLsbD (sup : Rows) (c : Column) (i : Nat) : (c.left sup).getLsbD i = true ↔
    c.dots.getLsbD i = true ∧ sup.getLsbD i = false ∧ c.fired.getLsbD i = false ∧ c.lost.getLsbD i = false := by
  by_cases hi : i < 24
  · simp [Column.left, hi, and_assoc]
  · simp [BitVec.getLsbD_of_ge _ i (Nat.le_of_not_lt hi)]

theorem Column.marksSound_iff (sup : Rows) (c : Column) : c.marksSound sup = true ↔ ∀ i,
    (c.fired.getLsbD i = true → c.lost.getLsbD i = false)
    ∧ (c.fired.getLsbD i = true ∨ c.lost.getLsbD i = true → c.dots.getLsbD i = true ∧ sup.getLsbD i = false) := by
  simp only [Column.marksSound, Bool.and_eq_true, beq_iff_eq, rows_eq_zero_iff, ← forall_and]
  refine forall_congr' fun i => ?_
  by_cases hi : i < 24
  · simp only [BitVec.getLsbD_and, BitVec.getLsbD_or, BitVec.getLsbD_not, hi, decide_true, Bool.true_and]
    cases c.fired.getLsbD i <;> cases c.lost.getLsbD i <;> simp
  · simp [BitVec.getLsbD_of_ge _ i (Nat.le_of_not_lt hi)]

/-- The rows left open are those not marked now. -/
theorem Mark.put_left (m : Mark) (sup r : Rows) (c : Column) (i : Nat) : ((m.put r c).left sup).getLsbD i = true
    ↔ (c.left sup).getLsbD i = true ∧ r.getLsbD i = false := by
  rw [Column.left_getLsbD, Column.left_getLsbD]
  cases m <;> simp only [Mark.put, BitVec.getLsbD_or, Bool.or_eq_false_iff] <;> tauto

section
variable {sup r : Rows} {c : Column} (m : Mark) (hr : ∀ i, r.getLsbD i = true → (c.left sup).getLsbD i = true)
include hr

/-- Marking open rows leaves the marks sound. -/
theorem Mark.put_sound (hc : c.marksSound sup = true) : (m.put r c).marksSound sup = true := by
  rw [Column.marksSound_iff] at hc ⊢
  intro i
  have hi := hr i
  rw [Column.left_getLsbD] at hi
  have hci := hc i
  cases m <;> simp only [Mark.put, BitVec.getLsbD_or, Bool.or_eq_true, Bool.or_eq_false_iff] <;>
    cases hri : r.getLsbD i <;> simp_all

theorem Mark.put_fired : rowCount (m.put r c).fired
    = rowCount c.fired + (match m with | .fired => rowCount r | .lost => 0) := by
  cases m
  · exact rowCount_or fun i hi => Bool.eq_false_iff.2 fun hri => by
      have := (Column.left_getLsbD sup c i).1 (hr i hri)
      simp_all
  · rfl

theorem Mark.put_lost : rowCount (m.put r c).lost
    = rowCount c.lost + (match m with | .fired => 0 | .lost => rowCount r) := by
  cases m
  · rfl
  · exact rowCount_or fun i hi => Bool.eq_false_iff.2 fun hri => by
      have := (Column.left_getLsbD sup c i).1 (hr i hri)
      simp_all

end

/-! ## Marks of a pass -/

theorem outstanding_of_masked {pool : Pool} {p : Pass} {sup : Rows} (h : p.suppressed = some sup) (c : Nat) :
    outstanding pool p c = (passColumn pool p c).left sup := by simp [outstanding, h, Column.left]

theorem outstanding_of_unmasked {pool : Pool} {p : Pass} (h : p.suppressed = none) (c : Nat) :
    outstanding pool p c = 0#24 := by simp [outstanding, h]

theorem passCounted_masked {pool : Pool} {p : Pass} {sup : Rows} (h : p.suppressed = some sup) :
    passCounted pool p = true ↔ (∀ c, c < p.span → (passColumn pool p c).marksSound sup = true)
      ∧ p.dotsSuppressed = sumRows pool p (fun c => c.dots &&& sup) ∧ p.dotsFired = sumRows pool p Column.fired
      ∧ p.dotsLost = sumRows pool p Column.lost := by
  simp only [passCounted, h, Bool.and_eq_true, List.all_eq_true, List.mem_range, beq_iff_eq, and_assoc]

theorem passCounted_unmasked {pool : Pool} {p : Pass} (h : p.suppressed = none) :
    passCounted pool p = true ↔
      (∀ c, c < p.span → (passColumn pool p c).fired = 0#24 ∧ (passColumn pool p c).lost = 0#24)
      ∧ p.dotsSuppressed = 0 ∧ p.dotsFired = sumRows pool p Column.fired
      ∧ p.dotsLost = sumRows pool p Column.lost := by
  simp only [passCounted, h, Bool.and_eq_true, List.all_eq_true, List.mem_range, beq_iff_eq, and_assoc]

/-- The sum over a pass's columns when one column changes. -/
theorem sumRows_update {pool pool' : Pool} {p : Pass} {i k : Nat} {v : Column} {f : Column → Rows} (hi : i < p.span)
    (hcol : ∀ d, passColumn pool' p d = if d = i then v else passColumn pool p d)
    (hv : rowCount (f v) = rowCount (f (passColumn pool p i)) + k) : sumRows pool' p f = sumRows pool p f + k :=
  sum_range_update hi fun d => by
    rw [hcol]
    split
    · exact hv
    · rfl

theorem passCounted_mark {pool pool' : Pool} {p : Pass} {sup r : Rows} {i : Nat} (m : Mark)
    (hsup : p.suppressed = some sup) (hi : i < p.span)
    (hr : ∀ j, r.getLsbD j = true → ((passColumn pool p i).left sup).getLsbD j = true)
    (hcol : ∀ d, passColumn pool' p d = if d = i then m.put r (passColumn pool p i) else passColumn pool p d)
    (h : passCounted pool p = true) : passCounted pool' (m.count (rowCount r) p) = true := by
  obtain ⟨hmarks, hsuppressed, hfired, hlost⟩ := (passCounted_masked hsup).1 h
  have hmarks' : ∀ c, c < p.span → (passColumn pool' p c).marksSound sup = true := fun c hc => by
    rw [hcol]
    split
    · exact m.put_sound hr (hmarks i hi)
    · exact hmarks c hc
  have hsuppressed' : sumRows pool' p (fun c => c.dots &&& sup) = sumRows pool p (fun c => c.dots &&& sup) :=
    (sumRows_update (k := 0) hi hcol (by cases m <;> rfl)).trans (Nat.add_zero _)
  have hfired' := sumRows_update hi hcol (m.put_fired hr)
  have hlost' := sumRows_update hi hcol (m.put_lost hr)
  cases m with
  | fired =>
    exact (passCounted_masked (p := Mark.fired.count (rowCount r) p) hsup).2 ⟨hmarks',
      hsuppressed.trans hsuppressed'.symm, (congrArg (· + rowCount r) hfired).trans hfired'.symm,
      hlost.trans hlost'.symm⟩
  | lost =>
    exact (passCounted_masked (p := Mark.lost.count (rowCount r) p) hsup).2 ⟨hmarks',
      hsuppressed.trans hsuppressed'.symm, hfired.trans hfired'.symm,
      (congrArg (· + rowCount r) hlost).trans hlost'.symm⟩

/-- An outstanding row lies in the pass, is masked, and is one of the channel's. -/
theorem chanOutstanding_getLsbD {pool : Pool} {p : Pass} {ch : Chan} {c j : Nat} :
    (chanOutstanding pool p ch c).getLsbD j = true ↔ ∃ sup, p.suppressed = some sup
      ∧ (p.start ≤ c ∧ c < p.start + p.span) ∧ ((passColumn pool p (c - p.start)).left sup).getLsbD j = true
      ∧ ch.rows.getLsbD j = true := by
  unfold chanOutstanding
  split
  · rename_i hc
    rw [BitVec.getLsbD_and, Bool.and_eq_true]
    cases hs : p.suppressed with
    | none => simp [outstanding_of_unmasked hs]
    | some sup => simp [outstanding_of_masked hs, hc]
  · rename_i hc
    simp [hc]

theorem Chan.rows_apart {ch ch' : Chan} (h : ch ≠ ch') {j : Nat} (hj : ch.rows.getLsbD j = true) :
    ch'.rows.getLsbD j = false := by
  have hand : ch.rows &&& ch'.rows = 0#24 := by
    cases ch <;> cases ch' <;> simp_all [Chan.rows]
  have := congrArg (BitVec.getLsbD · j) hand
  simpa [hj] using this

end Sys2Proof.Machine
end

section
/-! Bursts: the dots they owe, as they are formed, fired and lost. -/

namespace Sys2Proof.Machine

/-! ## Marking dots of the head -/

/-- Mark the rows of some pairs in a column of the head, and count them. -/
def markDots (m : Mark) (column : Nat) (pairs : List (Nat × Nat)) (s : State) : State :=
  mapHeadPass (m.count pairs.length) (updateHeadColumn column (m.put (pairRows pairs)) s)

theorem fireDots_eq (b : Burst) (pairs : List (Nat × Nat)) (s : State) :
    fireDots b pairs s = if b.orphan || pairs.isEmpty then s else markDots .fired b.column pairs s := rfl

theorem loseDots_eq (b : Burst) (pairs : List (Nat × Nat)) (s : State) :
    loseDots b pairs s
      = if b.orphan || pairs.isEmpty then s else latch .dotsLost (markDots .lost b.column pairs s) := rfl

@[simp] theorem markDots_frame (m : Mark) (c : Nat) (pairs : List (Nat × Nat)) (s : State) :
    (markDots m c pairs s).runner = s.runner ∧ (markDots m c pairs s).carriage = s.carriage
    ∧ (markDots m c pairs s).driver = s.driver ∧ (markDots m c pairs s).paper = s.paper
    ∧ (markDots m c pairs s).events = s.events := by
  simp [markDots]

theorem updateHeadColumn_pool (c : Nat) (f : Column → Column) (s : State) : (updateHeadColumn c f s).pool = s.pool
    ∨ ∃ k v, (updateHeadColumn c f s).pool = s.pool.write k v := by
  unfold updateHeadColumn
  split
  · exact .inl rfl
  split
  · exact .inl rfl
  · exact .inr ⟨_, _, rfl⟩

theorem kept_updateHeadColumn (c : Nat) (f : Column → Column) (s : State) : Kept s (updateHeadColumn c f s) := by
  refine ⟨by simp [QueueKept.refl], ?_, fun hwf => ?_, by simp [recordsSound]⟩
  · rcases updateHeadColumn_pool c f s with h | ⟨k, v, h⟩ <;> rw [h]; rfl
  · rcases updateHeadColumn_pool c f s with h | ⟨k, v, h⟩ <;> rw [h]
    · exact hwf
    · exact Pool.write_wf hwf k v

theorem Mark.count_plot (m : Mark) (n : Nat) (p : Pass) : (m.count n p).plot = p.plot := by cases m <;> rfl

theorem kept_markDots (m : Mark) (c : Nat) (pairs : List (Nat × Nat)) (s : State) : Kept s (markDots m c pairs s) := by
  have hkin : ∀ e : Entry, Kin Pass.plot e { e with pass := e.pass.map (m.count pairs.length) } := fun e =>
    ⟨rfl, by simp [Function.comp_def, m.count_plot], id, id⟩
  have hcount : ∀ t, Kept t (mapHeadPass (m.count pairs.length) t) := fun t =>
    ⟨.mapHead hkin t, by simp, by simp, by simp [recordsSound]⟩
  exact (kept_updateHeadColumn c _ s).trans (hcount _)

section
variable {s : State} {e : Entry} {rest : List Entry} {p : Pass} {ch : Chan} {column : Nat} {pairs : List (Nat × Nat)}

/-- Outstanding dots of the head have a place in the pool, and marking them writes it. -/
theorem markDots_cons (hq : s.queue = e :: rest) (hp : e.pass = some p) (m : Mark) {sup : Rows} {j : Nat}
    (hj : ((passColumn s.pool p (column - p.start)).left sup).getLsbD j = true) :
    ∃ k, p.address (column - p.start) = some k
      ∧ (markDots m column pairs s).pool
        = s.pool.write k (m.put (pairRows pairs) (passColumn s.pool p (column - p.start)))
      ∧ (markDots m column pairs s).queue = { e with pass := some (m.count pairs.length p) } :: rest := by
  cases hk : p.address (column - p.start) with
  | none =>
    have hblank : passColumn s.pool p (column - p.start) = Column.blank := by simp [passColumn, hk]
    rw [hblank, Column.left_getLsbD] at hj
    simp [Column.blank] at hj
  | some k =>
    have hread : passColumn s.pool p (column - p.start) = s.pool.read k := by simp [passColumn, hk]
    have hup := updateHeadColumn_cons (c := column) (f := m.put (pairRows pairs)) hq hp
    rw [hk] at hup
    refine ⟨k, rfl, ?_, ?_⟩
    · rw [markDots, (mapHeadPass_frame _ _).2.2.1, hup, hread]; rfl
    · rw [markDots, mapHeadPass_cons (e := e) (rest := rest) (by rw [hup]; exact hq), hp]; rfl

end

/-- A dot that is not marked stays outstanding. -/
theorem chanOutstanding_mark {pool pool' : Pool} {p : Pass} {i n : Nat} {r : Rows} (m : Mark)
    (hcol : ∀ d, passColumn pool' p d = if d = i then m.put r (passColumn pool p i) else passColumn pool p d)
    {ch : Chan} {c j : Nat} (h : (chanOutstanding pool p ch c).getLsbD j = true)
    (hj : c - p.start = i → r.getLsbD j = false) :
    (chanOutstanding pool' (m.count n p) ch c).getLsbD j = true := by
  have hcount : (chanOutstanding pool' (m.count n p) ch c) = chanOutstanding pool' p ch c := by cases m <;> rfl
  rw [hcount]
  obtain ⟨sup, hsup, hrange, hopen, hrow⟩ := chanOutstanding_getLsbD.1 h
  refine chanOutstanding_getLsbD.2 ⟨sup, hsup, hrange, ?_, hrow⟩
  rw [hcol]
  split
  · rename_i hi
    exact (m.put_left ..).2 ⟨hi ▸ hopen, hj hi⟩
  · exact hopen

/-- Marking dots that a burst owes: they are counted to the head, the others of its image stay outstanding, and the
other entries' images stay as they are. -/
theorem Account.markDots_head {s : State} (hsound : poolSound s = true) (a : Account s) {b : Burst}
    {now later : List (Nat × Nat)} (hb : (b, now ++ later) ∈ owedBursts s) (m : Mark) (hnow : now ≠ []) :
    ∃ e p rest, s.queue = e :: rest ∧ e.state.started = true ∧ e.pass = some p
      ∧ (markDots m b.column now s).queue = { e with pass := some (m.count now.length p) } :: rest
      ∧ passCounted (markDots m b.column now s).pool (m.count now.length p) = true
      ∧ (∀ f ∈ rest, Agree s.pool (markDots m b.column now s).pool f.blocks)
      ∧ Owes (markDots m b.column now s).pool (m.count now.length p) (b, later)
      ∧ ∀ x, Owes s.pool p x → (x.1.chan, x.1.column) ≠ (b.chan, b.column) →
        Owes (markDots m b.column now s).pool (m.count now.length p) x := by
  obtain ⟨e, p, he, hstart, hp, hnodup, hrows⟩ := a.owed _ hb
  obtain ⟨rest, hq⟩ : ∃ rest, s.queue = e :: rest := by
    cases h : s.queue with
    | nil => simp [h] at he
    | cons f rest => exact ⟨rest, by simpa [h] using he⟩
  dsimp only at hnodup hrows
  obtain ⟨y₀, hy₀⟩ := List.exists_mem_of_ne_nil _ hnow
  obtain ⟨sup, hsup, ⟨hlow, hhigh⟩, hopen₀, -⟩ := chanOutstanding_getLsbD.1 (hrows y₀ (List.mem_append_left _ hy₀))
  obtain ⟨k, hk, hpool, hqueue⟩ := markDots_cons (pairs := now) hq hp m hopen₀
  have hopen : ∀ j, (pairRows now).getLsbD j = true →
      ((passColumn s.pool p (b.column - p.start)).left sup).getLsbD j = true ∧ b.chan.rows.getLsbD j = true :=
    fun j hj => by
      obtain ⟨y, hy, rfl⟩ := List.mem_map.1 ((pairRows_getLsbD now j).1 hj).2
      obtain ⟨sup', hsup', -, h⟩ := chanOutstanding_getLsbD.1 (hrows y (List.mem_append_left _ hy))
      obtain rfl := Option.some.inj (hsup.symm.trans hsup')
      exact h
  rw [List.map_append] at hnodup
  obtain ⟨hnodupNow, hnodupLater, hdisjoint⟩ := List.nodup_append.1 hnodup
  have hlen : rowCount (pairRows now) = now.length := by
    refine rowCount_pairRows hnodupNow fun i hi => ?_
    obtain ⟨y, hy, rfl⟩ := List.mem_map.1 hi
    exact BitVec.lt_of_getLsbD (hrows y (List.mem_append_left _ hy))
  obtain ⟨hwf, -, hshared⟩ := (poolSound_iff s).1 hsound
  have hheld := hshared.1
  rw [hq, heldBlocks_cons, Entry.blocks_of_pass hp] at hheld
  obtain ⟨hslots, -, hothers⟩ := List.nodup_append.1 hheld
  have hcol : ∀ d, passColumn (markDots m b.column now s).pool p d = if d = b.column - p.start
      then m.put (pairRows now) (passColumn s.pool p (b.column - p.start)) else passColumn s.pool p d := fun d => by
    rw [hpool]
    exact passColumn_write hwf hslots hk _ d
  refine ⟨e, p, rest, hq, hstart, hp, hqueue, ?_, fun f hf => ?_, ⟨hnodupLater, fun z hz => ?_⟩, fun x hx hne =>
    ⟨hx.1, fun z hz => ?_⟩⟩
  · exact hlen ▸ passCounted_mark m hsup (by omega) (fun j hj => (hopen j hj).1) hcol
      (a.counted e (hq ▸ .head _) p hp).1
  · rw [hpool]
    exact agree_write hwf fun hmem => hothers _ (address_block hk) _ (mem_heldBlocks.2 ⟨f, hf, hmem⟩) rfl
  · refine chanOutstanding_mark m hcol (hrows z (List.mem_append_right _ hz)) fun _ => Bool.eq_false_iff.2 fun hr => ?_
    exact hdisjoint _ ((pairRows_getLsbD now _).1 hr).2 _ (List.mem_map_of_mem hz) rfl
  · refine chanOutstanding_mark m hcol (hx.2 z hz) fun hcol' => Bool.eq_false_iff.2 fun hr => hne ?_
    obtain ⟨-, -, hrange, -, hrow⟩ := chanOutstanding_getLsbD.1 (hx.2 z hz)
    refine Prod.ext (Decidable.by_contra fun hch => ?_) (by dsimp only; omega)
    exact Bool.false_ne_true ((Chan.rows_apart hch hrow).symm.trans (hopen _ hr).2)

/-- What another burst owes is still owed after the marks. -/
theorem Account.headOwes_markDots {s : State} (hsound : poolSound s = true) (a : Account s) {b : Burst}
    {now later : List (Nat × Nat)} (hb : (b, now ++ later) ∈ owedBursts s) (m : Mark) (hnow : now ≠ [])
    {x : Burst × List (Nat × Nat)} (hx : HeadOwes s x) (hne : (x.1.chan, x.1.column) ≠ (b.chan, b.column)) :
    HeadOwes (markDots m b.column now s) x := by
  obtain ⟨e, p, rest, hq, hstart, hp, hqueue, -, -, -, howes⟩ := a.markDots_head hsound hb m hnow
  obtain ⟨e', p', he', -, hp', hx⟩ := hx
  obtain rfl : e = e' := by simpa [hq] using he'
  obtain rfl := Option.some.inj (hp.symm.trans hp')
  have hhead : (markDots m b.column now s).queue.head? = some { e with pass := some (m.count now.length p) } := by
    rw [hqueue]; rfl
  exact ⟨_, _, hhead, hstart, rfl, howes x hx hne⟩

/-- The dots that a burst owes are marked: the account holds with a driver for which the burst owes only what is
left. -/
theorem Account.mark {s : State} (hsound : poolSound s = true) (a : Account s) {b : Burst}
    {now later : List (Nat × Nat)} {others : List (Burst × List (Nat × Nat))} (m : Mark) (hnow : now ≠ [])
    (hbefore : (owedBursts s).Perm ((b, now ++ later) :: others)) {d : Driver}
    (hA : d.pendA = none ∨ d.pendA = s.driver.pendA) (hB : d.pendB = none ∨ d.pendB = s.driver.pendB)
    (hafter : (owedBursts (s.setDriver d)).Subperm ((b, later) :: others)) :
    Account ((markDots m b.column now s).setDriver d) := by
  have hb : (b, now ++ later) ∈ owedBursts s := hbefore.symm.subset (.head _)
  obtain ⟨e, p, rest, hq, hstart, hp, hqueue, hcounted, hagree, hlater, -⟩ := a.markDots_head hsound hb m hnow
  have hkeys : (owedKeys (s.setDriver d)).Subperm (owedKeys s) :=
    (subperm_map hafter _).trans (hbefore.map fun x => (x.1.chan, x.1.column)).symm.subperm
  have hhead : (markDots m b.column now s).queue.head? = some { e with pass := some (m.count now.length p) } := by
    rw [hqueue]; rfl
  have hbusy : owedBursts s ≠ [] := List.ne_nil_of_mem hb
  refine ⟨?_, ?_, ?_, ?_, ?_, ?_, ?_, ?_, ?_⟩
  · intro f hf q hfq
    rcases List.mem_cons.1 (show f ∈ _ :: rest from hqueue ▸ hf) with rfl | hf
    · obtain rfl := Option.some.inj hfq
      refine ⟨hcounted, fun ho => ?_⟩
      have ho : e.state = .opened := ho
      simp [ho, EntryState.started] at hstart
    · have hblocks := hagree f hf
      rw [Entry.blocks_of_pass hfq] at hblocks
      exact (passCounted_agree hblocks).symm ▸ a.counted f (hq ▸ .tail _ hf) q hfq
  · rintro b hb
    rcases hA with h | h
    · exact absurd (h.symm.trans hb) nofun
    · exact a.pendA b (h ▸ hb)
  · rintro b hb
    rcases hB with h | h
    · exact absurd (h.symm.trans hb) nofun
    · exact a.pendB b (h ▸ hb)
  · intro x hx
    rcases List.mem_cons.1 (hafter.subset hx) with rfl | hx
    · exact ⟨_, _, hhead, hstart, rfl, hlater⟩
    · refine a.headOwes_markDots hsound hb m hnow (a.owed x (hbefore.symm.subset (.tail _ hx))) fun hkey => ?_
      have hnodup := (hbefore.map fun x : Burst × List (Nat × Nat) => (x.1.chan, x.1.column)).nodup_iff.1 a.apart
      exact (List.nodup_cons.1 hnodup).1 (List.mem_map.2 ⟨x, hx, hkey⟩)
  · exact nodup_of_subperm hkeys a.apart
  · intro hs
    obtain ⟨-, hplan, hadv, hchan⟩ := a.sweep (by simpa [sweeping] using hs)
    refine ⟨⟨_, hhead, hstart⟩, by simpa using hplan, by simpa [advancingHead] using hadv, fun ch => ?_⟩
    have hcols : columnsLeft ((markDots m b.column now s).setDriver d) ch = columnsLeft s ch := by
      cases ch <;> simp [columnsLeft]
    rw [hcols]
    exact ⟨(hchan ch).1, fun c hc hmem => (hchan ch).2 c hc (hkeys.subset hmem)⟩
  · exact fun p' hp' => absurd (a.headPlan p' (by simpa using hp')).2 hbusy
  · exact fun p' hp' => a.lookAhead p' (by simpa using hp')
  · exact fun hadv => absurd (a.of_advancing (by simpa [advancingHead] using hadv)).1 hbusy

/-! ## What the driver owes -/

/-- A burst's pairs that are still to come are owed when it has some and its entry has not left. -/
def owes (x : Burst × List (Nat × Nat)) : Bool := !x.1.orphan && !x.2.isEmpty

/-- What the bursts in the pending places owe. -/
def owedPending (d : Driver) : List (Burst × List (Nat × Nat)) :=
  (d.pendA.toList ++ d.pendB.toList).map (fun b => (b, b.groups.flatten)) |>.filter owes

theorem owedBursts_eq (s : State) : owedBursts s =
    (s.driver.running.toList.map fun r => (r.burst, (r.burst.groups.drop r.next).flatten)).filter owes
      ++ owedPending s.driver := by
  simp only [owedBursts, owedPending, List.filter_append, List.map_append, List.append_assoc]; rfl

theorem owedBursts_of_running {s : State} {r : Running} (h : s.driver.running = some r) : owedBursts s =
    [(r.burst, (r.burst.groups.drop r.next).flatten)].filter owes ++ owedPending s.driver := by
  rw [owedBursts_eq, h]; rfl

theorem owedBursts_of_free {s : State} (h : s.driver.running = none) : owedBursts s = owedPending s.driver := by
  rw [owedBursts_eq, h]; rfl

theorem filter_owes_subperm (x : Burst × List (Nat × Nat)) (l : List (Burst × List (Nat × Nat))) :
    ([x].filter owes ++ l).Subperm (x :: l) :=
  (((List.filter_sublist (p := owes) (l := [x])).append (.refl l))).subperm

/-- Pairs that a burst owes are marked, and the driver owes them no longer. -/
theorem keeps_marks {s : State} {b : Burst} {now later : List (Nat × Nat)} {others : List (Burst × List (Nat × Nat))}
    (m : Mark) (hb : b.orphan = false) (hnow : now ≠ [])
    (hbefore : (owedBursts s).Perm ([(b, now ++ later)].filter owes ++ others)) {d : Driver}
    (hA : d.pendA = none ∨ d.pendA = s.driver.pendA) (hB : d.pendB = none ∨ d.pendB = s.driver.pendB)
    (hafter : (owedBursts (s.setDriver d)).Subperm ([(b, later)].filter owes ++ others)) :
    Keeps s ((markDots m b.column now s).setDriver d) where
  toPreserves := by
    have h := kept_markDots m b.column now s
    exact Kept.preserves ⟨h.queue, h.free, h.cells, h.records⟩
  dots _ hp a := by
    have howes : [(b, now ++ later)].filter owes = [(b, now ++ later)] := by simp [owes, hb, hnow]
    rw [howes] at hbefore
    exact a.mark hp m hnow hbefore hA hB (hafter.trans (filter_owes_subperm _ _))

/-- A driver that owes no more than before. -/
theorem Quiet.setDriver {s t : State} (h : Quiet s t) {d : Driver} (hA : d.pendA = none ∨ d.pendA = t.driver.pendA)
    (hB : d.pendB = none ∨ d.pendB = t.driver.pendB) (howed : (owedBursts (t.setDriver d)).Subperm (owedBursts t)) :
    Quiet s (t.setDriver d) :=
  h.trans { Quiet.refl t with pendA := hA, pendB := hB, owed := howed }

section
variable {s : State} {b : Burst} {now later : List (Nat × Nat)} {others : List (Burst × List (Nat × Nat))} {d : Driver}

/-- Pairs not owed at all: nothing is marked. -/
theorem quiet_unowed (h : (b.orphan || now.isEmpty) = true)
    (hbefore : (owedBursts s).Perm ([(b, now ++ later)].filter owes ++ others))
    (hA : d.pendA = none ∨ d.pendA = s.driver.pendA) (hB : d.pendB = none ∨ d.pendB = s.driver.pendB)
    (hafter : (owedBursts (s.setDriver d)).Subperm ([(b, later)].filter owes ++ others)) : Quiet s (s.setDriver d) := by
  refine (Quiet.refl s).setDriver hA hB (hafter.trans ?_)
  have hsame : [(b, later)].filter owes = [(b, now ++ later)].filter owes := by
    rcases Bool.or_eq_true_iff.1 h with h | h
    · simp [owes, h]
    · rw [List.isEmpty_iff.1 h, List.nil_append]
  rw [hsame]
  exact hbefore.symm.subperm

theorem keeps_fireDots (hbefore : (owedBursts s).Perm ([(b, now ++ later)].filter owes ++ others))
    (hA : d.pendA = none ∨ d.pendA = s.driver.pendA) (hB : d.pendB = none ∨ d.pendB = s.driver.pendB)
    (hafter : (owedBursts (s.setDriver d)).Subperm ([(b, later)].filter owes ++ others)) :
    Keeps s ((fireDots b now s).setDriver d) := by
  rw [fireDots_eq]
  split
  · exact (quiet_unowed ‹_› hbefore hA hB hafter).keeps
  · rename_i h
    obtain ⟨hb, hnow⟩ : b.orphan = false ∧ now ≠ [] := by simpa using h
    exact keeps_marks .fired hb hnow hbefore hA hB hafter

theorem keeps_loseDots (hbefore : (owedBursts s).Perm ([(b, now)].filter owes ++ others))
    (hA : d.pendA = none ∨ d.pendA = s.driver.pendA) (hB : d.pendB = none ∨ d.pendB = s.driver.pendB)
    (hafter : (owedBursts (s.setDriver d)).Subperm others) : Keeps s ((loseDots b now s).setDriver d) := by
  have hbefore : (owedBursts s).Perm ([(b, now ++ [])].filter owes ++ others) := by rwa [List.append_nil]
  have hafter : (owedBursts (s.setDriver d)).Subperm ([(b, [])].filter owes ++ others) := by simpa [owes] using hafter
  rw [loseDots_eq]
  split
  · exact (quiet_unowed ‹_› hbefore hA hB hafter).keeps
  · rename_i h
    obtain ⟨hb, hnow⟩ : b.orphan = false ∧ now ≠ [] := by simpa using h
    exact (keeps_marks .lost hb hnow hbefore hA hB hafter).quiet (Quiet.refl _).latch

end

/-! ## Slots and the drive fault -/

theorem keeps_burstSlot (s : State) : Keeps s (burstSlot s) := by
  unfold burstSlot
  split
  · exact .refl s
  rename_i r hr
  split
  · rename_i hnext
    have hsplit : (r.burst.groups.drop r.next).flatten
        = r.burst.groups.getD r.next [] ++ (r.burst.groups.drop (r.next + 1)).flatten := by
      rw [List.drop_eq_getElem_cons hnext, List.flatten_cons, List.getD_eq_getElem _ _ hnext]
    have hbefore := owedBursts_of_running hr
    rw [hsplit] at hbefore
    have hfire : Keeps s ((fireDots r.burst (r.burst.groups.getD r.next []) s).setDriver
        { s.driver with running := some { r with next := r.next + 1 } }) :=
      keeps_fireDots (.of_eq hbefore) (.inr rfl) (.inr rfl) (by rw [owedBursts_of_running rfl]; exact .refl _)
    dsimp only
    rw [(fireDots_frame _ _ _).2.2.2.2.1]
    split
    · exact hfire.quiet (Quiet.refl _).setOutputs.setHeat.suspendTrigger
    · exact hfire.quiet (Quiet.refl _).setOutputs.setHeat
  · exact .refl s

theorem keeps_takeDriveFault (s : State) : Keeps s (takeDriveFault s) := by
  unfold takeDriveFault
  split
  · exact .refl s
  rename_i r hr
  have hlose : Keeps s ((loseDots r.burst (r.burst.groups.drop r.next).flatten s).setDriver
      { s.driver with running := none }) :=
    keeps_loseDots (.of_eq (owedBursts_of_running hr)) (.inr rfl) (.inr rfl)
      (by rw [owedBursts_of_free rfl]; exact .refl _)
  dsimp only
  rw [(loseDots_frame _ _ _).2.2.2.2.1]
  refine hlose.quiet (Quiet.raiseFault ?_)
  split
  · exact (Quiet.refl _).setOutputs.haltSweep
  · exact (Quiet.refl _).setOutputs.haltSweep.setHeadState.setRunner

theorem keeps_checkDriveFault (s : State) : Keeps s (checkDriveFault s) := by
  unfold checkDriveFault
  split
  · exact keeps_takeDriveFault s
  · exact .refl s

theorem keeps_driveFaultInput (b : Bool) (s : State) : Keeps s (driveFaultInput b s) :=
  ((Quiet.refl s).setPins.keeps.trans (keeps_checkDriveFault _)).quiet (Quiet.refl _).settleTear

theorem keeps_burstEnd (s : State) : Keeps s (burstEnd s) := by
  unfold burstEnd
  split
  · exact .refl s
  rename_i r hr
  split
  · rename_i hend
    have hfree : Quiet s (s.setDriver { s.driver with running := none }) := by
      refine (Quiet.refl s).setDriver (.inr rfl) (.inr rfl) ?_
      rw [owedBursts_of_free rfl, owedBursts_eq]
      exact (List.sublist_append_right _ _).subperm
    exact (hfree.setOutputs.flushResume.startPending.keeps.trans (keeps_checkDriveFault _)).quiet
      (Quiet.refl _).checkSweepEnd.settleTear
  · exact .refl s

/-! ## Matches -/

theorem rowList_nodup (r : Rows) : (rowList r).Nodup := List.nodup_range.filter _

theorem pairsOf_rows (pinMap : List Nat) (r : Rows) : (pairsOf pinMap r).map Prod.fst = rowList r := by
  simp [pairsOf, Function.comp_def]

theorem mem_groupPairs {m : Mech} {pairs : List (Nat × Nat)} {x : Nat × Nat} (h : x ∈ (groupPairs m pairs).flatten) :
    x ∈ pairs := by
  simp only [groupPairs, List.mem_flatten, List.mem_map] at h
  obtain ⟨_, ⟨k, -, rfl⟩, hx⟩ := h
  exact List.mem_of_mem_filter hx

/-- Each pair is sorted into one group. -/
theorem groupPairs_nodup (m : Mech) {pairs : List (Nat × Nat)} (h : (pairs.map Prod.fst).Nodup) :
    ((groupPairs m pairs).flatten.map Prod.fst).Nodup := by
  rw [groupPairs, ← List.flatMap_def, List.map_flatMap, List.nodup_flatMap]
  refine ⟨fun k _ => h.sublist (List.filter_sublist.map _), List.nodup_range.imp fun {k l} hkl => ?_⟩
  rw [Function.onFun, List.disjoint_left]
  intro r hr hr'
  obtain ⟨x, hx, rfl⟩ := List.mem_map.1 hr
  obtain ⟨y, hy, hxy⟩ := List.mem_map.1 hr'
  obtain ⟨hx, hk⟩ := List.mem_filter.1 hx
  obtain ⟨hy, hl⟩ := List.mem_filter.1 hy
  obtain rfl := List.inj_on_of_nodup_map h hy hx hxy
  exact hkl ((beq_iff_eq.1 hk).symm.trans (beq_iff_eq.1 hl))

/-- The pairs of a formed burst are the outstanding dots of its column, each once. -/
theorem formBurst_rows (s : State) (ch : Chan) (c : Nat) :
    ((formBurst s ch c).groups.flatten.map Prod.fst).Nodup
      ∧ ∀ x ∈ (formBurst s ch c).groups.flatten, (headRows s ch c).getLsbD x.1 = true := by
  refine ⟨groupPairs_nodup _ ((pairsOf_rows _ _).symm ▸ rowList_nodup _), fun x hx => ?_⟩
  have hx : x.1 ∈ (pairsOf s.driver.pinMap (headRows s ch c)).map Prod.fst := List.mem_map_of_mem (mem_groupPairs hx)
  rw [pairsOf_rows] at hx
  exact (List.mem_filter.1 hx).2

/-- A formed burst owes outstanding dots of the head. -/
theorem formBurst_owed {s : State} (hstart : HeadStarted s) {ch : Chan} {c : Nat}
    (h : owes (formBurst s ch c, (formBurst s ch c).groups.flatten) = true) :
    HeadOwes s (formBurst s ch c, (formBurst s ch c).groups.flatten) := by
  obtain ⟨e, he, hstart⟩ := hstart
  obtain ⟨hnodup, hrows⟩ := formBurst_rows s ch c
  have hsome : (formBurst s ch c).groups.flatten ≠ [] := by simp_all [owes]
  obtain ⟨y, hy⟩ := List.exists_mem_of_ne_nil _ hsome
  cases hp : e.pass with
  | none => simpa [headRows, he, hp] using hrows y hy
  | some p =>
    have hhead : headRows s ch c = chanOutstanding s.pool p ch c := by simp [headRows, he, hp]
    exact ⟨e, p, he, hstart, hp, hnodup, fun y hy => hhead ▸ hrows y hy⟩

/-- A column that a channel of the sweep has matched: it is not to come again, and no burst owes its dots. -/
structure Matched (s : State) (ch : Chan) (c : Nat) : Prop where
  sweep : sweeping s = true
  left : c ∉ columnsLeft s ch
  owed : (ch, c) ∉ owedKeys s

/-- The burst of a matched column joins those that owe dots. -/
theorem Account.addBurst {s : State} (a : Account s) {b : Burst} (h : Matched s b.chan b.column)
    (hb : owes (b, b.groups.flatten) = true → HeadOwes s (b, b.groups.flatten)) {d : Driver}
    (hA : ∀ b, d.pendA = some b → b.chan = .a) (hB : ∀ b, d.pendB = some b → b.chan = .b)
    (howed : (owedBursts (s.setDriver d)).Subperm ((b, b.groups.flatten) :: owedBursts s)) :
    Account (s.setDriver d) := by
  obtain ⟨hstart, hplan, hadv, hchan⟩ := a.sweep h.sweep
  have hkeys : (owedKeys (s.setDriver d)).Subperm ((b.chan, b.column) :: owedKeys s) := subperm_map howed _
  refine ⟨a.counted, hA, hB, fun x hx => ?_, nodup_of_subperm hkeys (List.nodup_cons.2 ⟨h.owed, a.apart⟩), fun _ =>
    ⟨hstart, hplan, hadv, fun ch => ⟨(hchan ch).1, fun c hc hmem => ?_⟩⟩, fun p hp => ?_, a.lookAhead, a.advance⟩
  · rcases List.mem_cons.1 (howed.subset hx) with rfl | hx'
    · exact hb (List.mem_filter.1 hx).2
    · exact a.owed x hx'
  · rcases List.mem_cons.1 (hkeys.subset hmem) with heq | hmem
    · obtain ⟨rfl, rfl⟩ := Prod.mk.inj heq
      exact h.left hc
    · exact (hchan ch).2 c hc hmem
  · exact absurd (hplan.symm.trans hp) nofun

end Sys2Proof.Machine
end

section
/-! Matches and encoder edges: the bursts they form. -/

namespace Sys2Proof.Machine

/-! ## A match is taken -/

theorem owedPending_setPend (d : Driver) (ch : Chan) (b : Option Burst) : (owedPending (d.setPend ch b)).Perm
    ((b.toList.map fun b => (b, b.groups.flatten)).filter owes ++ owedPending (d.setPend ch none)) := by
  cases ch
  · simp [owedPending, Driver.setPend, List.filter_append]
  · simp only [owedPending, Driver.setPend, List.map_append, List.filter_append, Option.toList_none, List.append_nil]
    exact List.perm_append_comm

theorem setPend_pend (d : Driver) (ch : Chan) : d.setPend ch (d.pend ch) = d := by cases ch <;> rfl

theorem owedBursts_setPend (s : State) (ch : Chan) (b : Option Burst) :
    (owedBursts (s.setDriver (s.driver.setPend ch b))).Perm
      ((b.toList.map fun b => (b, b.groups.flatten)).filter owes
        ++ owedBursts (s.setDriver (s.driver.setPend ch none))) := by
  have hrun : ∀ x, (s.driver.setPend ch x).running = s.driver.running := fun x => by cases ch <;> rfl
  simp only [owedBursts_eq, setDriver_driver, hrun]
  exact ((owedPending_setPend _ _ _).append_left _).trans (List.perm_append_comm_assoc _ _ _)

theorem owedBursts_of_pend {s : State} {ch : Chan} {o : Option Burst} (h : s.driver.pend ch = o) : (owedBursts s).Perm
    ((o.toList.map fun b => (b, b.groups.flatten)).filter owes
      ++ owedBursts (s.setDriver (s.driver.setPend ch none))) := by
  have := owedBursts_setPend s ch o
  subst h
  rwa [setPend_pend] at this

/-- The pending place of a channel, emptied. -/
theorem setPend_none_pend (d : Driver) (ch : Chan) :
    ((d.setPend ch none).pendA = none ∨ (d.setPend ch none).pendA = d.pendA)
      ∧ ((d.setPend ch none).pendB = none ∨ (d.setPend ch none).pendB = d.pendB) := by
  cases ch <;> simp [Driver.setPend]

/-- The older burst of the channel gives up its place; its dots are lost. -/
theorem keeps_losePending {s : State} {ch : Chan} {old : Burst} (h : s.driver.pend ch = some old) :
    Keeps s ((loseDots old old.groups.flatten s).setDriver (s.driver.setPend ch none)) :=
  keeps_loseDots (owedBursts_of_pend h) (setPend_none_pend _ _).1 (setPend_none_pend _ _).2 (.refl _)

theorem setPend_some_pend {d : Driver} {ch : Chan} {b : Burst} (hb : b.chan = ch) :
    (∀ x, d.pendA = some x → x.chan = .a) → (∀ x, d.pendB = some x → x.chan = .b) →
    (∀ x, (d.setPend ch (some b)).pendA = some x → x.chan = .a)
      ∧ ∀ x, (d.setPend ch (some b)).pendB = some x → x.chan = .b := by
  rintro hA hB
  subst hb
  cases hc : b.chan <;> simp_all [Driver.setPend]

/-- The burst of a match takes the pending place, which is empty. -/
theorem Account.setPend {s : State} (a : Account s) {b : Burst} (h : Matched s b.chan b.column)
    (hb : owes (b, b.groups.flatten) = true → HeadOwes s (b, b.groups.flatten))
    (hnone : s.driver.pend b.chan = none) : Account (s.setDriver (s.driver.setPend b.chan (some b))) := by
  obtain ⟨hA, hB⟩ := setPend_some_pend (d := s.driver) (b := b) rfl a.pendA a.pendB
  refine a.addBurst h hb hA hB ?_
  have hperm := owedBursts_setPend s b.chan (some b)
  rw [← hnone, setPend_pend] at hperm
  exact hperm.subperm.trans (filter_owes_subperm _ _)

theorem owedKeys_losePending {s : State} {ch : Chan} {old : Burst} (h : s.driver.pend ch = some old) :
    (owedKeys ((loseDots old old.groups.flatten s).setDriver (s.driver.setPend ch none))).Subperm (owedKeys s) :=
  subperm_map (((List.sublist_append_right _ _).subperm).trans (owedBursts_of_pend h).symm.subperm) _

/-- A matched column keeps what it holds when the older burst of its channel is lost. -/
theorem headOwes_loseDots {s : State} (hp : poolSound s = true) (a : Account s) {ch : Chan} {c : Nat}
    (h : Matched s ch c) {old : Burst} (hold : s.driver.pend ch = some old) {x : Burst × List (Nat × Nat)}
    (hx : HeadOwes s x) (hkey : (x.1.chan, x.1.column) = (ch, c)) : HeadOwes (loseDots old old.groups.flatten s) x := by
  rw [loseDots_eq]
  split
  · exact hx
  · rename_i howes
    obtain ⟨hb, hnow⟩ : old.orphan = false ∧ old.groups.flatten ≠ [] := by simpa using howes
    have hmem : (old, old.groups.flatten) ∈ owedBursts s :=
      (owedBursts_of_pend hold).symm.subset (List.mem_append_left _ (by simp [owes, hb, hnow]))
    refine a.headOwes_markDots hp (later := []) (by rwa [List.append_nil]) .lost hnow hx fun heq => h.owed ?_
    rw [← hkey, heq]
    exact List.mem_map_of_mem hmem

theorem account_takeMatch {s : State} (hq : queueSound s = true) (hp : poolSound s = true) (a : Account s) {ch : Chan}
    {c : Nat} (h : Matched s ch c) : Account (takeMatch ch c s) := by
  have hform := formBurst_owed (a.sweep h.sweep).1 (ch := ch) (c := c)
  cases hpend : s.driver.pend ch with
  | none =>
    rw [takeMatch_of_none hpend]
    split
    · rename_i hfree
      have hfree : s.driver.running = none := by simp_all
      refine a.addBurst (b := formBurst s ch c) h hform a.pendA a.pendB ?_
      rw [owedBursts_of_running rfl, owedBursts_of_free hfree]
      exact filter_owes_subperm _ _
    · exact a.setPend (b := formBurst s ch c) h hform hpend
  | some old =>
    rw [takeMatch_of_waiting hpend]
    have hlost := (keeps_losePending hpend).dots hq hp a
    have hset : s.driver.setPend ch (some (formBurst s ch c))
        = (s.driver.setPend ch none).setPend ch (some (formBurst s ch c)) := by cases ch <;> rfl
    rw [hset]
    refine hlost.setPend (b := formBurst s ch c) ⟨?_, ?_, fun hmem => ?_⟩ (fun howes => ?_) ?_
    · simpa [sweeping] using h.sweep
    · have hleft := h.left
      cases ch <;> simpa [columnsLeft, formBurst] using hleft
    · exact h.owed ((owedKeys_losePending hpend).subset hmem)
    · exact headOwes_loseDots hp a h hpend (hform howes) rfl
    · cases ch <;> rfl

/-- Only the burst of the match joins those that owe dots. -/
theorem owedKeys_takeMatch (ch : Chan) (c : Nat) (s : State) :
    (owedKeys (takeMatch ch c s)).Subperm ((ch, c) :: owedKeys s) := by
  have hform : ∀ l : List (Burst × List (Nat × Nat)),
      (([(formBurst s ch c, (formBurst s ch c).groups.flatten)].filter owes ++ l).map
        fun x => (x.1.chan, x.1.column)).Subperm ((ch, c) :: l.map fun x => (x.1.chan, x.1.column)) := fun l =>
    subperm_map (filter_owes_subperm (formBurst s ch c, (formBurst s ch c).groups.flatten) l) _
  cases hpend : s.driver.pend ch with
  | none =>
    rw [takeMatch_of_none hpend]
    split
    · rename_i hfree
      have hfree : s.driver.running = none := by simp_all
      rw [owedKeys, owedBursts_of_running rfl, owedKeys, owedBursts_of_free hfree]
      exact hform _
    · have hperm := owedBursts_setPend s ch (some (formBurst s ch c))
      rw [← hpend, setPend_pend] at hperm
      exact (hperm.map _).subperm.trans (hform _)
  | some old =>
    rw [takeMatch_of_waiting hpend]
    exact (((owedBursts_setPend s ch _).map _).subperm.trans (hform _)).trans
      ((List.subperm_cons _).2 (owedKeys_losePending hpend))

theorem kept_loseDots (b : Burst) (pairs : List (Nat × Nat)) (s : State) : Kept s (loseDots b pairs s) := by
  rw [loseDots_eq]
  split
  · exact (Quiet.refl s).kept
  · exact (kept_markDots ..).trans (Quiet.refl _).latch.kept

theorem preserves_takeMatch (ch : Chan) (c : Nat) (s : State) : Preserves s (takeMatch ch c s) := by
  have hdriver : ∀ {t : State} (d : Driver), Kept s t → Preserves s (t.setDriver d) := fun d h =>
    Kept.preserves ⟨h.queue, h.free, h.cells, h.records⟩
  cases hpend : s.driver.pend ch with
  | none =>
    rw [takeMatch_of_none hpend]
    split
    · exact hdriver _ (Quiet.refl s).kept
    · exact hdriver _ (Quiet.refl s).kept
  | some old =>
    rw [takeMatch_of_waiting hpend]
    exact hdriver _ (kept_loseDots ..)

/-! ## Both channels compare -/

theorem columnsLeft_takeMatch (ch : Chan) (c : Nat) (s : State) (ch' : Chan) :
    columnsLeft (takeMatch ch c s) ch' = columnsLeft s ch' := by
  cases ch' <;> simp [columnsLeft]

/-- A match of one channel leaves that of the other. -/
theorem Matched.takeMatch {s : State} {ch ch' : Chan} {c c' : Nat} (h : Matched s ch' c') (hne : ch' ≠ ch) :
    Matched (Machine.takeMatch ch c s) ch' c' where
  sweep := by simpa [sweeping] using h.sweep
  left := columnsLeft_takeMatch ch c s ch' ▸ h.left
  owed hmem := by
    rcases List.mem_cons.1 ((owedKeys_takeMatch ch c s).subset hmem) with heq | hmem
    · exact hne (Prod.mk.inj heq).1
    · exact h.owed hmem

/-- What a channel has still to match, when its next element matched and when not. -/
theorem step_columns (c : Channel) (q : Nat) : (c.list.drop c.next).map Elem.column
    = ((c.hit q).map Elem.column).toList ++ ((c.step (c.hit q)).list.drop (c.step (c.hit q)).next).map Elem.column := by
  cases h : c.hit q with
  | none => simp [Channel.step]
  | some e =>
    have hget : c.list[c.next]? = some e := by
      unfold Channel.hit at h
      split at h
      · exact (Option.filter_eq_some_iff.1 h).1
      · cases h
    obtain ⟨hlt, hget⟩ := List.getElem?_eq_some_iff.1 hget
    rw [List.drop_eq_getElem_cons hlt, hget]
    rfl

/-- Both channels after a compare. -/
def stepChannels (q : Nat) (s : State) : State := s.setCarriage { s.carriage with
  chanA := s.carriage.chanA.step (s.carriage.chanA.hit q)
  chanB := s.carriage.chanB.step (s.carriage.chanB.hit q) }

/-- The element of a channel that matches. -/
def hitOf (q : Nat) (s : State) : Chan → Option Elem
  | .a => s.carriage.chanA.hit q
  | .b => s.carriage.chanB.hit q

theorem columnsLeft_step (q : Nat) (s : State) (ch : Chan) : columnsLeft s ch
    = ((hitOf q s ch).map Elem.column).toList ++ columnsLeft (stepChannels q s) ch := by
  cases ch <;> exact step_columns _ _

theorem Account.stepChannels {s : State} (a : Account s) (q : Nat) : Account (stepChannels q s) := by
  have hsub : ∀ ch, (columnsLeft (Machine.stepChannels q s) ch).Sublist (columnsLeft s ch) := fun ch => by
    rw [columnsLeft_step q s ch]
    exact List.sublist_append_right _ _
  refine { a with sweep := fun hs => ?_ }
  obtain ⟨hstart, hplan, hadv, hchan⟩ := a.sweep hs
  exact ⟨hstart, hplan, hadv, fun ch => ⟨(hchan ch).1.sublist (hsub ch), fun c hc =>
    (hchan ch).2 c ((hsub ch).subset hc)⟩⟩

theorem Account.matched {s : State} (a : Account s) (hs : sweeping s = true) {q : Nat} {ch : Chan} {e : Elem}
    (h : hitOf q s ch = some e) : Matched (Machine.stepChannels q s) ch e.column := by
  obtain ⟨-, -, -, hchan⟩ := a.sweep hs
  obtain ⟨hnodup, howed⟩ := hchan ch
  have hcols := columnsLeft_step q s ch
  rw [h] at hcols
  rw [hcols] at hnodup howed
  exact ⟨hs, (List.nodup_cons.1 hnodup).1, howed _ (.head _)⟩

theorem preserves_handMatch (ch : Chan) (hit : Option Elem) (s : State) : Preserves s (handMatch ch hit s) := by
  cases hit with
  | none => exact .refl s
  | some e => exact preserves_takeMatch ch e.column s

theorem account_handMatch {s : State} (hq : queueSound s = true) (hp : poolSound s = true) (a : Account s) {ch : Chan}
    {hit : Option Elem} (h : ∀ e, hit = some e → Matched s ch e.column) : Account (handMatch ch hit s) := by
  cases hit with
  | none => exact a
  | some e => exact account_takeMatch hq hp a (h e rfl)

theorem Matched.handMatch {s : State} {ch ch' : Chan} {hit : Option Elem} {c : Nat} (h : Matched s ch' c)
    (hne : ch' ≠ ch) : Matched (Machine.handMatch ch hit s) ch' c := by
  cases hit with
  | none => exact h
  | some e => exact h.takeMatch hne

/-- Both matches of an edge are handed over. -/
theorem keeps_handMatches {s t : State} {q : Nat} (hs : sweeping s = true)
    (ht : t = stepChannels q s ∨ ∃ n, t = (stepChannels q s).setDriver { s.driver with matchCount := n }) :
    Keeps s (handMatch .b (hitOf q s .b) (handMatch .a (hitOf q s .a) t)) := by
  have hstep : Preserves s t := by
    rcases ht with rfl | ⟨n, rfl⟩ <;> exact Kept.preserves ⟨.refl _, rfl, id, id⟩
  have hcount : Account (stepChannels q s) → Account t := by
    rcases ht with rfl | ⟨n, rfl⟩
    · exact id
    · exact Quiet.account ((Quiet.refl _).setDriver (.inr rfl) (.inr rfl) (.refl _))
  have hmatch : ∀ ch c, Matched (stepChannels q s) ch c → Matched t ch c := fun ch c h => by
    rcases ht with rfl | ⟨n, rfl⟩
    · exact h
    · exact ⟨h.sweep, h.left, h.owed⟩
  have hA := hstep.trans (preserves_handMatch .a (hitOf q s .a) t)
  refine ⟨hA.trans (preserves_handMatch ..), fun hq hp a => ?_⟩
  have aA := account_handMatch (hstep.queue hq) (hstep.pool hq hp) (hcount (a.stepChannels q)) fun e he =>
    hmatch .a _ (a.matched hs he)
  exact account_handMatch (hA.queue hq) (hA.pool hq hp) aA fun e he => (hmatch .b _ (a.matched hs he)).handMatch nofun

theorem keeps_compareAt {s : State} (hs : sweeping s = true) (q : Nat) : Keeps s (compareAt q s) := by
  have hhand := fun t ht => (keeps_handMatches (t := t) (q := q) hs ht).trans (keeps_checkDriveFault _)
  unfold compareAt
  dsimp only
  refine Keeps.quiet ?_ (Quiet.refl _).checkSweepEnd
  split
  · exact hhand _ (.inr ⟨_, rfl⟩)
  · exact hhand _ (.inl rfl)

/-! ## Encoder edges -/

/-- The run-up ends: the channels compare from their places. -/
theorem Quiet.arm {s t : State} (h : Quiet s t) (ht : t.carriage.state = .runup) {x : Carriage}
    (hA : x.chanA.list = t.carriage.chanA.list ∧ x.chanA.next = t.carriage.chanA.next := by exact ⟨rfl, rfl⟩)
    (hB : x.chanB.list = t.carriage.chanB.list ∧ x.chanB.next = t.carriage.chanB.next := by exact ⟨rfl, rfl⟩) :
    Quiet s (t.setCarriage x) :=
  h.trans { Quiet.refl t with
    sweep := fun _ => ⟨by simp [sweeping, ht], fun ch => by cases ch <;> simp [columnsLeft, hA, hB]⟩ }

theorem keeps_endRunUp {s : State} (hs : s.carriage.state = .runup) (q : Nat) : Keeps s (endRunUp q s) := by
  have harm := (Quiet.refl s).mapHeadPass (f := fun p => { p with sweeps := min 255 (p.sweeps + 1) }) |>.arm
    (by simpa using hs) (x := { (mapHeadPass (fun p => { p with sweeps := min 255 (p.sweeps + 1) }) s).carriage with
      state := .sweep
      chanA := { (mapHeadPass _ s).carriage.chanA with armed := true }
      chanB := { (mapHeadPass _ s).carriage.chanB with armed := true } })
  exact harm.keeps.trans (keeps_compareAt (by simp [sweeping]) q)

theorem keeps_edgeAt (dir : Dir) (q : Nat) (s : State) : Keeps s (edgeAt dir q s) := by
  unfold edgeAt
  split
  · split
    · exact keeps_endRunUp ‹_› q
    · exact .refl s
  · rename_i hs _
    split
    · exact keeps_compareAt (by simp [sweeping, hs]) q
    · exact .refl s
  · exact .refl s

theorem keeps_countEdge (dir : Dir) (s : State) : Keeps s (countEdge dir s) := by
  have hstall : Quiet s (if s.carriage.drive = .off then s else startStall s) := by
    split
    · exact .refl s
    · exact (Quiet.refl s).startStall
  unfold countEdge
  dsimp only
  generalize (if s.carriage.drive = .off then s else startStall s) = s0 at hstall ⊢
  refine Keeps.quiet ?_ (Quiet.refl _).settleTear
  split
  · exact hstall.edgeUnplaced.keeps
  · split
    · exact hstall.crossLimit.keeps
    · exact hstall.sameSweep.keeps.trans (keeps_edgeAt ..)

theorem keeps_encoderEdge (q : Quad) (s : State) : Keeps s (encoderEdge q s) := by
  have hturn : Quiet s (turnQuad q s) := by
    rw [turnQuad_frame]
    exact (Quiet.refl s).setPins
  exact hturn.keeps.trans (keeps_countEdge _ _)

end Sys2Proof.Machine
end

section
/-! The runner: masks, plans, take-up and orders. -/

namespace Sys2Proof.Machine

/-! ## Masks -/

theorem maskPass_plot (prof : Profile) (pool : Pool) (y : Nat) (pe : Option Nat) (p : Pass) :
    (maskPass prof pool y pe p).plot = p.plot := by
  rw [maskPass_eq]
  split <;> rfl

theorem sumRows_zero {pool : Pool} {p : Pass} {f : Column → Rows}
    (h : ∀ c, c < p.span → f (passColumn pool p c) = 0#24) : sumRows pool p f = 0 := by
  refine List.sum_eq_zero fun n hn => ?_
  obtain ⟨c, hc, rfl⟩ := List.mem_map.1 hn
  rw [h c (List.mem_range.1 hc), rowCount_zero]

/-- Masking counts the dots that lie in suppressed rows; no dot bears a mark yet. -/
theorem passCounted_maskPass {prof : Profile} {pool : Pool} {y : Nat} {pe : Option Nat} {p : Pass}
    (h : passCounted pool p = true) : passCounted pool (maskPass prof pool y pe p) = true := by
  rw [maskPass_eq]
  split
  · rename_i hnone
    obtain ⟨hblank, -, hfired, hlost⟩ := (passCounted_unmasked hnone).1 h
    refine (passCounted_masked rfl).2 ⟨fun c hc => ?_, rfl, hfired, hlost⟩
    obtain ⟨hf, hl⟩ := hblank c hc
    have hcol : ∀ sup, (passColumn pool p c).marksSound sup = true := fun sup => by
      rw [Column.marksSound_iff]
      simp [hf, hl]
    exact hcol _
  · exact h

theorem headPrint_iff {s : State} {st : EntryState} : headPrint s st = true ↔
    ∃ e p rest, s.queue = e :: rest ∧ e.state = st ∧ e.pass = some p := by
  unfold headPrint
  cases s.queue with
  | nil => simp
  | cons e rest => simp [Option.isSome_iff_exists]

theorem preserves_maskHead (prof : Profile) (y : Nat) (pe : Option Nat) (s : State) :
    Preserves s (mapHeadPass (maskPass prof s.pool y pe) s) := by
  have hkin : ∀ e : Entry, Kin Pass.plot e { e with pass := e.pass.map (maskPass prof s.pool y pe) } := fun e =>
    ⟨rfl, by simp [Function.comp_def, maskPass_plot], id, id⟩
  exact Kept.preserves ⟨.mapHead hkin s, by simp, by simp, by simp [recordsSound]⟩

/-- Nothing is owed to an entry without masks. -/
theorem Account.owed_nil_of_unmasked {s : State} (a : Account s) {e : Entry} {p : Pass} (he : s.queue.head? = some e)
    (hp : e.pass = some p) (h : p.suppressed = none) : owedBursts s = [] := by
  refine List.eq_nil_iff_forall_not_mem.2 fun x hx => ?_
  obtain ⟨e', p', he', -, hp', -, hrows⟩ := a.owed x hx
  obtain rfl := Option.some.inj (he.symm.trans he')
  obtain rfl := Option.some.inj (hp.symm.trans hp')
  have hsome : x.2 ≠ [] := by
    have := (List.mem_filter.1 hx).2
    simp_all
  obtain ⟨y, hy⟩ := List.exists_mem_of_ne_nil _ hsome
  obtain ⟨sup, hsup, -⟩ := chanOutstanding_getLsbD.1 (hrows y hy)
  exact nomatch h.symm.trans hsup

theorem account_maskHead {prof : Profile} {y : Nat} {pe : Option Nat} {s : State} (a : Account s)
    (hhead : headPrint s .active = true) (hphase : s.runner.phase = .prep) :
    Account (mapHeadPass (maskPass prof s.pool y pe) s) := by
  obtain ⟨e, p, rest, hq, hactive, hp⟩ := headPrint_iff.1 hhead
  have hmap : mapHeadPass (maskPass prof s.pool y pe) s
      = s.setQueue ({ e with pass := some (maskPass prof s.pool y pe p) } :: rest) := by
    rw [mapHeadPass_cons hq, hp]; rfl
  have hstart : e.state.started = true := by rw [hactive]; rfl
  rw [hmap]
  cases hsup : p.suppressed with
  | some sup =>
    have hsame : ({ e with pass := some (maskPass prof s.pool y pe p) } : Entry) = e := by
      rw [maskPass_eq, if_neg (by simp [hsup]), ← hp]
    rw [hsame, ← hq]
    exact a
  | none =>
    refine a.requeue (fun f hf q hfq => ?_) rfl rfl rfl (.inr rfl) a.lookAhead id
      (.inl ⟨a.owed_nil_of_unmasked (by rw [hq]; rfl) hp hsup, ?_, fun _ => ⟨_, rfl, hstart⟩⟩)
    · rcases List.mem_cons.1 hf with rfl | hf
      · obtain rfl := Option.some.inj hfq
        refine ⟨passCounted_maskPass (a.counted e (hq ▸ .head _) p hp).1, fun ho => ?_⟩
        exact nomatch hactive.symm.trans ho
      · exact a.counted f (hq ▸ .tail _ hf) q hfq
    · exact Bool.eq_false_iff.2 fun hadv => (a.advance hadv).1 hphase

theorem keeps_masking (s : State) : Keeps s (masking s) := by
  unfold masking
  split
  · rename_i h
    obtain ⟨hphase, -, hhead, -⟩ := h
    have hmask : Keeps s (mapHeadPass (maskPass (activeProfile s) s.pool s.paper.y s.paper.pe) s) :=
      ⟨preserves_maskHead .., fun _ _ a => account_maskHead a hhead hphase⟩
    exact hmask.quiet (Quiet.refl _).afterMasking
  · exact .refl s

/-! ## Plans -/

/-- A plan's lists name each column once (R7). -/
theorem planAt_listsSound (m : Mech) (pool : Pool) (tag : Byte) (p : Pass) (dir : Dir) (g : Nat) :
    (planAt m pool tag p dir g).listsSound = true := by
  have hnodup : ∀ ch, ((firingList m pool p ch dir g).map Elem.column).Nodup := fun ch => by
    refine List.pairwise_map.2 ((firingList_columns m pool p ch dir g).imp fun {x y} h => ?_)
    split at h <;> omega
  simp only [Plan.listsSound, planAt, hnodup, decide_true, Bool.and_self]

theorem listsSound_of_made {s : State} {tag : Byte} {p : Pass} {pos : Nat} {plan : Plan}
    (h : planSweep s tag p pos = .made plan) : plan.listsSound = true := by
  rw [(planSweep_made_iff.1 h).2]
  exact planAt_listsSound ..

theorem sweeping_of_atRest {s : State} (h : carriageAtRest s = true) : sweeping s = false := by
  cases hs : s.carriage.state <;> simp_all [sweeping, carriageAtRest, CarState.atRest]

theorem owedBursts_of_idle {s : State} (h : driverIdle s = true) : owedBursts s = [] := by
  obtain ⟨⟨hr, hA⟩, hB⟩ : (s.driver.running = none ∧ s.driver.pendA = none) ∧ s.driver.pendB = none := by
    simpa [driverIdle] using h
  simp [owedBursts, hr, hA, hB]

theorem keeps_planHead {s : State} (hrest : carriageAtRest s = true) (hidle : driverIdle s = true) (e : Entry)
    (p : Pass) (pos : Nat) : Keeps s (planHead e p pos s) := by
  unfold planHead
  split
  · exact (Quiet.refl s).setRunner.keeps
  · exact (Quiet.refl s).setRunner.keeps
  · rename_i plan hmade
    have hplan : Keeps s (s.setRunner { s.runner with headPlan := some plan }) := by
      refine ⟨Kept.preserves ⟨.refl _, rfl, id, id⟩, fun _ _ a => { a with
        sweep := fun hs => absurd ((sweeping_of_atRest hrest).symm.trans hs) Bool.false_ne_true
        headPlan := fun p' hp' => ?_ }⟩
      obtain rfl := Option.some.inj hp'
      exact ⟨listsSound_of_made hmade, owedBursts_of_idle hidle⟩
    exact hplan.quiet (Quiet.refl _).mapHeadPass.approachOrder

theorem keeps_position (s : State) : Keeps s (position s) := by
  unfold position
  split
  · rename_i h
    obtain ⟨-, -, -, -, hrest, hidle⟩ := h
    split
    · exact (Quiet.refl s).homingOrder.settleTear.keeps
    · split
      · exact keeps_planHead hrest hidle _ _ _
      · exact .refl s
    · exact .refl s
  · exact .refl s

theorem lookAheadPass_plot (s : State) (left : Int) (p : Pass) : (lookAheadPass s left p).plot = p.plot :=
  maskPass_plot ..

/-- The next entry is masked, and its plan is kept for it (R150). -/
theorem keeps_lookAhead {s : State} {h e : Entry} {rest : List Entry} {p : Pass} {left : Int} {plan : Plan}
    (hq : s.queue = h :: e :: rest) (hp : e.pass = some p) (hready : e.state = .ready)
    (hplan : plan.listsSound = true) :
    Keeps s ((s.setRunner { s.runner with lookAhead := some plan }).setQueue
      (h :: { e with pass := some { lookAheadPass s left p with dir := some plan.dir } } :: rest)) := by
  refine ⟨Kept.preserves ⟨?_, rfl, id, id⟩, fun _ _ a => ?_⟩
  · rw [hq]
    have hplot : ({ lookAheadPass s left p with dir := some plan.dir } : Pass).plot = p.plot :=
      lookAheadPass_plot s left p
    exact .cons (.refl h) (.cons ⟨⟨rfl, by simp [hp, hplot], id, id⟩, id⟩ (kinBehind_refl rest))
  · refine a.requeue (fun f hf q hfq => ?_) rfl rfl rfl (.inr rfl) (fun p' hp' => ?_) id
      (.inr ⟨h, by rw [hq]; rfl, rfl, fun _ _ => rfl⟩)
    · rcases List.mem_cons.1 hf with rfl | hf
      · exact a.counted _ (hq ▸ .head _) q hfq
      rcases List.mem_cons.1 hf with rfl | hf
      · obtain rfl := Option.some.inj hfq
        refine ⟨?_, fun ho => nomatch hready.symm.trans ho⟩
        exact (passCounted_account rfl).trans
          (passCounted_maskPass (a.counted e (hq ▸ .tail _ (.head _)) p hp).1)
      · exact a.counted f (hq ▸ .tail _ (.tail _ hf)) q hfq
    · obtain rfl := Option.some.inj hp'
      exact hplan

theorem keeps_lookAheadPlan (s : State) : Keeps s (lookAheadPlan s) := by
  unfold lookAheadPlan
  split
  · rename_i hq
    split
    · rename_i hp _ _
      split
      · rename_i h
        split
        · rename_i hmade
          exact (keeps_lookAhead hq hp h.2.1 (listsSound_of_made hmade)).quiet (Quiet.refl _).approachOrder
        · exact .refl s
        · exact .refl s
      · exact .refl s
    · exact .refl s
  · exact .refl s

/-! ## Take-up -/

theorem planFor_some {s : State} {tag : Byte} {p : Plan} (h : planFor s tag = some p) : s.runner.lookAhead = some p :=
  (Option.filter_eq_some_iff.1 h).1

/-- A READY head is taken up, with the plan made for it. -/
theorem keeps_takeHead {s : State} {e : Entry} {rest : List Entry} (hq : s.queue = e :: rest)
    (hready : e.state = .ready) {x : Runner} (hplan : x.headPlan = planFor s e.tag)
    (hahead : x.lookAhead = if (planFor s e.tag).isSome then none else s.runner.lookAhead) {st : EntryState}
    (hst : st.started = true) :
    Keeps s (setHeadState st (s.setRunner x))
      ∧ (Account s → advancingHead (setHeadState st (s.setRunner x)) = false) := by
  have hhead : setHeadState st (s.setRunner x) = (s.setRunner x).setQueue ({ e with state := st } :: rest) :=
    mapHead_cons (s := s.setRunner x) hq
  have hne : ¬HeadStarted s := fun ⟨f, hf, hs⟩ => by
    obtain rfl : e = f := by simpa [hq] using hf
    simp [hready, EntryState.started] at hs
  have hnone : st ≠ .opened := by rintro rfl; cases hst
  rw [hhead]
  refine ⟨⟨Kept.preserves ⟨?_, rfl, id, id⟩, fun _ _ a => ?_⟩, fun a => (a.of_not_started hne).advance⟩
  · rw [hq]
    exact .cons ⟨rfl, rfl, fun ho => absurd ho hnone, fun _ => hst⟩ (kinBehind_refl rest)
  · have hdue := a.of_not_started hne
    refine { a with
      counted := fun f hf p hp => ?_
      owed := fun x hx => ?_
      sweep := fun hs => absurd (hdue.sweep.symm.trans hs) Bool.false_ne_true
      headPlan := fun p hp => ⟨a.lookAhead p (planFor_some (hplan ▸ hp)), hdue.owed⟩
      lookAhead := fun p hp => ?_
      advance := fun hadv => absurd (hdue.advance.symm.trans hadv) Bool.false_ne_true }
    · rcases List.mem_cons.1 hf with rfl | hf
      · exact ⟨(a.counted e (hq ▸ .head _) p hp).1, fun ho => absurd ho hnone⟩
      · exact a.counted f (hq ▸ .tail _ hf) p hp
    · have hx : x ∈ owedBursts s := hx
      simp [hdue.owed] at hx
    · have hp : x.lookAhead = some p := hp
      rw [hahead] at hp
      split at hp
      · cases hp
      · exact a.lookAhead p hp

theorem Keeps.firstPhase {s t : State} (h : Keeps s t) (hadv : Account s → advancingHead t = false) :
    Keeps s (Machine.firstPhase t) := by
  refine ⟨h.toPreserves.trans ?_, fun hq hp a => ((Quiet.refl t).firstPhase (hadv a)).account (h.dots hq hp a)⟩
  unfold Machine.firstPhase
  split
  · exact Kept.preserves ⟨.refl _, rfl, id, id⟩
  · exact Kept.preserves ⟨.refl _, rfl, id, id⟩

theorem keeps_takeUp (s : State) : Keeps s (takeUp s) := by
  unfold takeUp
  split
  · exact .refl s
  rename_i e rest hq
  split
  · rename_i h
    obtain ⟨htake, hadv⟩ := keeps_takeHead hq h.1 (x := { s.runner with
      headPlan := planFor s e.tag
      lookAhead := if (planFor s e.tag).isSome then none else s.runner.lookAhead
      firstOrderDue := !parkAhead s && (e.pass.isSome || advanceClear s) }) rfl rfl
      (st := if e.pass.isSome then .active else .advancing) (by split <;> rfl)
    unfold startHead
    dsimp only
    split
    · exact htake.quiet (Quiet.refl _).setRunner.giveRetract
    · exact htake.firstPhase hadv
  · exact (Quiet.refl s).giveRetract.keeps

/-! ## Orders -/

/-- No motion is in flight at a paper at rest. -/
theorem motion_of_atRest {s : State} (h : paperSound s = true) (hrest : paperInFlight s = false) :
    s.paper.motion = none := by
  cases hs : s.paper.state <;> simp_all [paperSound, paperInFlight, PaperState.inFlight]

theorem advancingHead_of_atRest {s : State} (h : paperSound s = true) (hrest : paperInFlight s = false) :
    advancingHead s = false := by
  simp [advancingHead, motion_of_atRest h hrest]

/-- What an act keeps when the paper record is sound: as `Keeps`. -/
structure KeepsAtPaper (s t : State) : Prop extends Preserves s t where
  dots : queueSound s = true → poolSound s = true → paperSound s = true → Account s → Account t

theorem Keeps.atPaper {s t : State} (h : Keeps s t) : KeepsAtPaper s t := ⟨h.toPreserves, fun hq hp _ => h.dots hq hp⟩

theorem preserves_giveSweep (p : Plan) (s : State) : Preserves s (giveSweep p s) :=
  Kept.preserves ⟨.refl _, rfl, id, id⟩

/-- The sweep of the head's plan starts: no burst owes a dot, and the lists name each column once. -/
theorem account_giveSweep {s : State} (a : Account s) {p : Plan} (hplan : s.runner.headPlan = some p)
    (hstart : HeadStarted s) (hadv : advancingHead s = false) : Account (giveSweep p s) := by
  obtain ⟨hlists, hnone⟩ := a.headPlan p hplan
  obtain ⟨hA, hB⟩ : (p.listA.map Elem.column).Nodup ∧ (p.listB.map Elem.column).Nodup := by
    simpa [Plan.listsSound] using hlists
  have hkeys : owedKeys (giveSweep p s) = [] :=
    congrArg (List.map fun x : Burst × List (Nat × Nat) => (x.1.chan, x.1.column)) hnone
  refine { a with
    sweep := fun _ => ⟨hstart, rfl, hadv, fun ch => ⟨?_, fun c _ => by simp [hkeys]⟩⟩
    headPlan := nofun
    advance := fun h => absurd (hadv.symm.trans h) Bool.false_ne_true }
  cases ch
  · exact hA
  · exact hB

theorem keeps_sweepOrder (s : State) : KeepsAtPaper s (sweepOrder s) := by
  unfold sweepOrder
  split
  · exact (Keeps.refl s).atPaper
  rename_i plan hplan
  split
  · rename_i h
    obtain ⟨-, hhead, -, -, hrest⟩ := h
    obtain ⟨e, p, rest, hq, hactive, -⟩ := headPrint_iff.1 hhead
    split
    · exact (Quiet.refl s).setRunner.keeps.atPaper
    · split
      · exact ⟨preserves_giveSweep plan s, fun _ _ hpaper a => account_giveSweep a hplan
          ⟨e, by rw [hq]; rfl, by rw [hactive]; rfl⟩ (advancingHead_of_atRest hpaper hrest)⟩
      · exact (Quiet.refl s).approachOrder.keeps.atPaper
  · exact (Keeps.refl s).atPaper

/-- The head's advance is ordered with the carriage out of a sweep and the paper at rest. -/
theorem keeps_orderAdvance {s t : State} (h : Quiet s t) {tag : Byte} {d : Int} (hsweep : sweeping s = false)
    (hrest : paperInFlight s = false) (hphase : t.runner.phase ≠ .prep) (hspent : HeadSpent s) :
    KeepsAtPaper s (settleTear (takeOrder (.entryAdvance tag) d t)) := by
  have hsettle : ∀ u, Keeps u (settleTear u) := fun u => (Quiet.refl u).settleTear.keeps
  refine ⟨h.kept.preserves.trans ((preserves_takeOrder ..).trans (hsettle _).toPreserves), fun hq hp hpaper a => ?_⟩
  have hkept := h.keeps
  have hnone := a.nothing_owed hspent
  have hdue : NothingDue t := by
    refine ⟨?_, Bool.eq_false_iff.2 fun hs => ?_, Bool.eq_false_iff.2 fun hadv => ?_⟩
    · have := h.owed
      rwa [hnone, List.subperm_nil] at this
    · exact Bool.false_ne_true (hsweep.symm.trans (h.sweep hs).1)
    · exact Bool.false_ne_true ((advancingHead_of_atRest hpaper hrest).symm.trans (h.advance hadv).1)
  have hspent' : HeadSpent t := by
    obtain ⟨e, he, hstart, hdone⟩ := hspent
    obtain ⟨f, hf, k⟩ := h.queue.head he
    refine ⟨f, hf, k.started hstart, fun q hq => ?_⟩
    obtain ⟨p, hp, hpq⟩ := k.pass_some' hq
    rw [h.pool, anyOutstanding_account hpq]
    exact hdone p hp
  exact (Quiet.refl _).settleTear.account
    (account_orderAdvance (hkept.queue hq) (hkept.pool hq hp) (h.account a) hdue hphase hspent')

theorem keeps_advanceOrder (s : State) : KeepsAtPaper s (advanceOrder s) := by
  unfold advanceOrder
  split
  · exact (Keeps.refl s).atPaper
  rename_i e rest hq
  split
  · exact (Keeps.refl s).atPaper
  rename_i p hp
  split
  · rename_i h
    obtain ⟨hphase, hstate, -, hrest, hpaper, hdone⟩ := h
    refine keeps_orderAdvance (Quiet.refl s).firstOrderGiven.setHeadState (sweeping_of_atRest hrest) hpaper
      (by simp [firstOrderGiven, hphase]) ⟨e, by rw [hq]; rfl, ?_, fun p' hp' => ?_⟩
    · rcases hstate with h | h <;> rw [h] <;> rfl
    · obtain rfl := Option.some.inj (hp.symm.trans hp')
      exact hdone
  · exact (Keeps.refl s).atPaper

theorem keeps_advanceEntryOrder (s : State) : KeepsAtPaper s (advanceEntryOrder s) := by
  unfold advanceEntryOrder
  split
  · exact (Keeps.refl s).atPaper
  rename_i e rest hq
  split
  · rename_i h
    obtain ⟨hnone, hphase, hstate, -, hclear, hpaper⟩ := h
    have hsweep : sweeping s = false := by
      rcases Bool.or_eq_true_iff.1 hclear with hr | ha
      · exact sweeping_of_atRest hr
      · have : s.carriage.state = .approach := by simp_all
        simp [sweeping, this]
    refine keeps_orderAdvance (Quiet.refl s).firstOrderGiven hsweep hpaper (by simp [firstOrderGiven, hphase])
      ⟨e, by rw [hq]; rfl, by rw [hstate]; rfl, fun p hp => nomatch hnone.symm.trans hp⟩
  · exact (Keeps.refl s).atPaper

end Sys2Proof.Machine
end

section
/-! IMAGE: the blocks it takes, the columns it merges. -/

namespace Sys2Proof.Machine

/-! ## Free blocks -/

theorem Pool.mem_freeList (p : Pool) (b : Nat) : b ∈ p.freeList ↔ b < 128 ∧ p.free.getLsbD b = true := by
  rw [Pool.freeList, List.mem_filter, List.mem_range]; rfl

theorem Pool.take_free (p : Pool) (b i : Nat) :
    (p.take b).free.getLsbD i = true ↔ p.free.getLsbD i = true ∧ i ≠ b := by
  by_cases hi : i < 128
  · simp only [Pool.take, BitVec.getLsbD_and, BitVec.getLsbD_not, BitVec.getLsbD_twoPow, hi, decide_true,
      Bool.true_and, Bool.and_eq_true, Bool.not_eq_true']
    refine and_congr_right fun _ => ?_
    by_cases hb : b = i
    · simp [hb, hi]
    · simp [hb, Ne.symm hb]
  · simp [BitVec.getLsbD_of_ge _ i (Nat.le_of_not_lt hi)]

theorem Pool.take_freeCount {p : Pool} {b : Nat} (h : b ∈ p.freeList) : (p.take b).freeCount + 1 = p.freeCount := by
  have hnodup : p.freeList.Nodup := List.nodup_range.filter _
  have herase : (p.take b).freeList = p.freeList.erase b := by
    rw [hnodup.erase_eq_filter, Pool.freeList, Pool.freeList, List.filter_filter]
    refine List.filter_congr fun i _ => Bool.eq_iff_iff.2 ?_
    rw [Pool.take_free, Bool.and_eq_true, bne_iff_ne, and_comm]
  have hpos : 0 < p.freeList.length := List.length_pos_of_mem h
  rw [Pool.freeCount, Pool.freeCount, herase, List.length_erase_of_mem h]
  omega

/-- A block taken for an entry that is queued. -/
theorem Shared.take {p : Pool} {l : List Nat} (h : Shared p.free l) {b : Nat} (hb : b ∈ p.freeList) :
    Shared (p.take b).free (b :: l) := by
  obtain ⟨hnodup, hlt, hfree⟩ := h
  obtain ⟨hb, hbfree⟩ := (p.mem_freeList b).1 hb
  refine ⟨List.nodup_cons.2 ⟨(hfree b hb).1 hbfree, hnodup⟩, fun i hi => ?_, fun i hi => ?_⟩
  · rcases List.mem_cons.1 hi with rfl | hi
    · exact hb
    · exact hlt i hi
  · rw [Pool.take_free, hfree i hi, List.mem_cons, not_or, and_comm]

/-! ## Slots filled -/

theorem set_none_perm {l : List (Option Nat)} {k b : Nat} (h : l[k]? = some none) :
    ((l.set k (some b)).filterMap id).Perm (b :: l.filterMap id) := by
  induction l generalizing k with
  | nil => simp at h
  | cons x t ih =>
    cases k with
    | zero =>
      obtain rfl : x = none := by simpa using h
      exact .refl _
    | succ k =>
      have ht := ih (k := k) (by simpa using h)
      cases x with
      | none => exact ht
      | some a => exact (ht.cons a).trans (.swap b a _)

theorem set_getD (l : List (Option Nat)) {k : Nat} (hk : k < l.length) (b j : Nat) :
    (l.set k (some b)).getD j none = if j = k then some b else l.getD j none := by
  rw [List.getD_eq_getElem?_getD, List.getD_eq_getElem?_getD, List.getElem?_set]
  by_cases h : k = j
  · subst h; simp [hk]
  · simp [h, Ne.symm h]

theorem mem_of_getD_some {l : List (Option Nat)} {j a : Nat} (h : l.getD j none = some a) : a ∈ l.filterMap id := by
  rw [List.getD_eq_getElem?_getD] at h
  cases hi : l[j]? with
  | none => simp [hi] at h
  | some v => exact List.mem_filterMap.2 ⟨v, List.mem_of_getElem? hi, by simpa [hi] using h⟩

/-- A column of an image, by its slot. -/
theorem passColumn_slot (pool : Pool) (p : Pass) (c : Nat) : passColumn pool p c
    = ((p.slots.getD (c / 64) none).map fun b => pool.read (b * 64 + c % 64)).getD Column.blank := by
  have hplace : p.address c = (p.slots.getD (c / 64) none).map fun b => b * 64 + c % 64 := rfl
  rw [passColumn, hplace]
  cases p.slots.getD (c / 64) none <;> rfl

/-- Absent slots of an entry's list are given cleared blocks: nothing else of the entry's image or of the others'
changes (R39). `x` is the pool with the list before, `y` after. -/
structure Filled (need : List Nat) (x y : Pool × List (Option Nat)) : Prop where
  length : y.2.length = x.2.length
  kept : ∀ j, j ∉ need → y.2.getD j none = x.2.getD j none
  given : ∀ j ∈ need, (y.2.getD j none).isSome = true
  count : y.1.freeCount + need.length = x.1.freeCount
  wf : x.1.wf = true → y.1.wf = true
  shared : ∀ others, Shared x.1.free (x.2.filterMap id ++ others) → Shared y.1.free (y.2.filterMap id ++ others)
  others : ∀ others, Shared x.1.free (x.2.filterMap id ++ others) → Agree x.1 y.1 others
  image : ∀ others, Shared x.1.free (x.2.filterMap id ++ others) → ∀ (p : Pass) c,
    passColumn y.1 { p with slots := y.2 } c = passColumn x.1 { p with slots := x.2 } c

theorem Filled.refl (x : Pool × List (Option Nat)) : Filled [] x x where
  length := rfl
  kept _ _ := rfl
  given := nofun
  count := rfl
  wf := id
  shared _ := id
  others _ _ _ _ := rfl
  image _ _ _ _ := rfl

theorem Filled.trans {m n : List Nat} {x y z : Pool × List (Option Nat)} (h : Filled m x y) (h' : Filled n y z) :
    Filled (m ++ n) x z where
  length := h'.length.trans h.length
  kept j hj := by
    obtain ⟨hm, hn⟩ : j ∉ m ∧ j ∉ n := by simpa using hj
    exact (h'.kept j hn).trans (h.kept j hm)
  given j hj := by
    by_cases hn : j ∈ n
    · exact h'.given j hn
    · rw [h'.kept j hn]
      exact h.given j ((List.mem_append.1 hj).resolve_right hn)
  count := by
    have := h.count
    have := h'.count
    simp only [List.length_append]
    omega
  wf hx := h'.wf (h.wf hx)
  shared o hx := h'.shared o (h.shared o hx)
  others o hx := (h.others o hx).trans (h'.others o (h.shared o hx))
  image o hx p c := (h'.image o (h.shared o hx) p c).trans (h.image o hx p c)

/-- One absent slot is given a free block. -/
theorem filled_take {x : Pool × List (Option Nat)} {k b : Nat} (hk : x.2[k]? = some none) (hb : b ∈ x.1.freeList) :
    Filled [k] x (x.1.take b, x.2.set k (some b)) := by
  obtain ⟨pool, l⟩ := x
  dsimp only at hk hb
  have hlt : k < l.length := (List.getElem?_eq_some_iff.1 hk).1
  have hapart : ∀ others, Shared pool.free (l.filterMap id ++ others) → b ∉ l.filterMap id ++ others := fun o h =>
    (h.2.2 b ((pool.mem_freeList b).1 hb).1).1 ((pool.mem_freeList b).1 hb).2
  have hget := set_getD l hlt b
  refine ⟨List.length_set, fun j hj => ?_, fun j hj => ?_, Pool.take_freeCount hb, fun h => Pool.take_wf h b,
    fun o h => ?_, fun o h => ?_, fun o h p c => ?_⟩
  · exact (hget j).trans (if_neg (by simpa using hj))
  · obtain rfl : j = k := by simpa using hj
    rw [hget, if_pos rfl]; rfl
  · exact (h.take hb).perm ((set_none_perm hk).symm.append_right o)
  · exact agree_take fun hmem => hapart o h (List.mem_append_right _ hmem)
  · have hread : ∀ i, (pool.take b).read i = if i / 64 = b then Column.blank else pool.read i :=
      cellsRead_cellsErase pool.cells b
    rw [passColumn_slot, passColumn_slot]
    dsimp only
    rw [hget]
    by_cases hc : c / 64 = k
    · have hnone : l.getD (c / 64) none = none := by rw [List.getD_eq_getElem?_getD, hc, hk]; rfl
      have hdiv : (b * 64 + c % 64) / 64 = b := by omega
      rw [if_pos hc, hnone]
      exact (hread _).trans (if_pos hdiv)
    · rw [if_neg hc]
      cases hs : l.getD (c / 64) none with
      | none => rfl
      | some a =>
        have hdiv : (a * 64 + c % 64) / 64 = a := by omega
        refine (hread _).trans (if_neg fun hab => hapart o h (List.mem_append_left _ ?_))
        exact hab ▸ hdiv.symm ▸ mem_of_getD_some hs

/-- Enough free blocks fill all the absent slots. -/
theorem allocate_filled {need : List Nat} {pool : Pool} {slots : List (Option Nat)} (hnodup : need.Nodup)
    (habsent : ∀ k ∈ need, slots[k]? = some none) (hroom : need.length ≤ pool.freeCount) :
    Filled need (pool, slots) (allocate need pool slots) := by
  induction need generalizing pool slots with
  | nil => exact .refl _
  | cons k t ih =>
    obtain ⟨hk, ht⟩ := List.nodup_cons.1 hnodup
    have hsome : pool.freeList ≠ [] := fun hnil => by
      have : pool.freeCount = 0 := congrArg List.length hnil
      simp [this] at hroom
    obtain ⟨b, rest, hb⟩ := List.exists_cons_of_ne_nil hsome
    have htake : b ∈ pool.freeList := hb ▸ .head _
    have hcount := Pool.take_freeCount htake
    have hstep := filled_take (x := (pool, slots)) (habsent k (.head _)) htake
    have hrec := ih (pool := pool.take b) (slots := slots.set k (some b)) ht (fun j hj => ?_)
      (by simp only [List.length_cons] at hroom; omega)
    · have hdef : allocate (k :: t) pool slots = allocate t (pool.take b) (slots.set k (some b)) := by
        simp [allocate, hb]
      rw [hdef]
      exact hstep.trans hrec
    · have hne : k ≠ j := fun h => hk (h ▸ hj)
      rw [List.getElem?_set_ne hne]
      exact habsent j (.tail _ hj)

/-! ## Columns merged -/

/-- A column with dots merged into it (R31). -/
def Column.merge (c : Column) (dots : Rows) : Column := { c with dots := c.dots ||| dots }

/-- Columns are merged into an image from a column on. -/
structure MergedFrom (o : Nat) (dots : List Rows) (p : Pass) (x y : Pool) : Prop where
  wf : y.wf = true
  free : y.free = x.free
  image : ∀ c, passColumn y p c
    = if o ≤ c ∧ c < o + dots.length then (passColumn x p c).merge (dots.getD (c - o) 0#24) else passColumn x p c
  others : ∀ blocks, (∀ b ∈ p.slots.filterMap id, b ∉ blocks) → Agree x y blocks

theorem mergeColumns_merged {p : Pass} (hnodup : (p.slots.filterMap id).Nodup) {dots : List Rows} {o : Nat} {x : Pool}
    (hwf : x.wf = true) (hplace : ∀ c, o ≤ c → c < o + dots.length → (p.address c).isSome = true) :
    MergedFrom o dots p x (mergeColumns dots o p x) := by
  induction dots generalizing o x with
  | nil => exact ⟨hwf, rfl, fun c => (if_neg (by simp)).symm, fun _ _ _ _ => rfl⟩
  | cons d t ih =>
    obtain ⟨k, hk⟩ := Option.isSome_iff_exists.1 (hplace o le_rfl (by simp))
    have hread : passColumn x p o = x.read k := by simp [passColumn, hk]
    have hcol : mergeColumn x p o d = x.write k ((passColumn x p o).merge d) := by
      rw [hread]
      simp only [mergeColumn, hk]; rfl
    have hwrite := passColumn_write hwf hnodup hk ((passColumn x p o).merge d)
    have hrec := ih (o := o + 1) (x := mergeColumn x p o d) (mergeColumn_wf hwf p o d)
      fun c hc hc' => hplace c (by omega) (by simp only [List.length_cons]; omega)
    rw [hcol] at hrec
    show MergedFrom o (d :: t) p x (mergeColumns t (o + 1) p (mergeColumn x p o d))
    rw [hcol]
    refine ⟨hrec.wf, hrec.free, fun c => ?_, fun l hl => ?_⟩
    · rw [hrec.image, hwrite]
      by_cases hc : c = o
      · subst hc; simp
      · by_cases hin : o + 1 ≤ c ∧ c < o + 1 + t.length
        · have hsub : c - o = c - (o + 1) + 1 := by omega
          have hin' : o ≤ c ∧ c < o + (d :: t).length := by simp only [List.length_cons]; omega
          rw [if_pos hin, if_neg hc, if_pos hin', hsub, List.getD_cons_succ]
        · have hin' : ¬(o ≤ c ∧ c < o + (d :: t).length) := by simp only [List.length_cons]; omega
          rw [if_neg hin, if_neg hc, if_neg hin']
    · exact (agree_write hwf (hl _ (address_block hk))).trans (hrec.others l hl)

end Sys2Proof.Machine
end

section
/-! IMAGE carried out: the entry's image before and after. -/

namespace Sys2Proof.Machine

/-! ## The columns of the data -/

theorem columnsOf_length : ∀ (n : Nat) (data : List Byte), data.length = 3 * n → (columnsOf data).length = n
  | 0, data, h => by
    obtain rfl : data = [] := List.length_eq_zero_iff.1 h
    rfl
  | n + 1, data, h => by
    match data, h with
    | b0 :: b1 :: b2 :: t, h =>
      have ht : t.length = 3 * n := by simp only [List.length_cons] at h; omega
      exact congrArg (· + 1) (columnsOf_length n t ht)

/-! ## The slots touched -/

theorem touchedSlots_nodup (o k : Nat) : (touchedSlots o k).Nodup := by
  unfold touchedSlots
  split
  · simp
  · simpa using ‹_›

/-- The slots of k columns from column o on, at most 64 (R30). -/
theorem mem_touchedSlots {o k : Nat} (hk : 1 ≤ k) (hk' : k ≤ 64) (j : Nat) :
    j ∈ touchedSlots o k ↔ o / 64 ≤ j ∧ j ≤ (o + k - 1) / 64 := by
  have hdef : touchedSlots o k
      = if o / 64 = (o + k - 1) / 64 then [o / 64] else [o / 64, (o + k - 1) / 64] := rfl
  rw [hdef]
  by_cases h : o / 64 = (o + k - 1) / 64
  · rw [if_pos h, List.mem_singleton]; omega
  · rw [if_neg h, List.mem_cons, List.mem_singleton]; omega

/-- The slots that k columns from column o on touch and that hold no block yet. -/
def absentSlots (p : Pass) (o k : Nat) : List Nat := (touchedSlots o k).filter fun j => (p.slots.getD j none).isNone

section
variable {s : State} {tag : Byte} {e : Entry} {p : Pass} {o k : Nat}

/-- The blocks of the pool, between one queued entry and the others. -/
theorem shared_of_find (hq : queueSound s = true) (hp : poolSound s = true) (hfind : findEntry s.queue tag = some e)
    (hpass : e.pass = some p) :
    Shared s.pool.free (p.slots.filterMap id ++ heldBlocks (s.queue.filter fun x => x.tag != tag)) := by
  obtain ⟨-, htags, -⟩ := (queueSound_iff s).1 hq
  obtain ⟨-, -, hshared⟩ := (poolSound_iff s).1 hp
  have := hshared.perm (heldBlocks_perm (perm_of_findEntry htags hfind))
  rwa [heldBlocks_cons, Entry.blocks_of_pass hpass] at this

theorem passSound_of_find (hp : poolSound s = true) (hfind : findEntry s.queue tag = some e) (hpass : e.pass = some p) :
    passSound p = true :=
  ((poolSound_iff s).1 hp).2.1 e (findEntry_tag hfind).1 p hpass

theorem image_filled (hsound : passSound p = true) (hk : 1 ≤ k) (hk' : k ≤ 64) (hfit : o + k ≤ p.span) {pool : Pool}
    (hroom : (absentSlots p o k).length ≤ pool.freeCount) :
    Filled (absentSlots p o k) (pool, p.slots) (allocate (absentSlots p o k) pool p.slots) := by
  refine allocate_filled ((touchedSlots_nodup o k).filter _) (fun j hj => ?_) hroom
  obtain ⟨hj, hnone⟩ := List.mem_filter.1 hj
  have hle := ((mem_touchedSlots hk hk' j).1 hj).2
  have hspan := passSound_span hsound
  have hlt : j < p.slots.length := by rw [((passSound_iff p).1 hsound).1]; omega
  rw [List.getD_eq_getElem _ _ hlt, Option.isNone_iff_eq_none] at hnone
  rw [List.getElem?_eq_getElem hlt, hnone]

/-- The pass of an entry after an IMAGE, and the pool. -/
def imagedPass (s : State) (p : Pass) (o k : Nat) : Pass :=
  { p with slots := (allocate (absentSlots p o k) s.pool p.slots).2, deadline := deadlineNow s }

def imagedPool (s : State) (p : Pass) (o k : Nat) (dots : List Rows) : Pool :=
  mergeColumns dots o (imagedPass s p o k) (allocate (absentSlots p o k) s.pool p.slots).1

/-- What an IMAGE does to the pool and to the pass of its entry. -/
structure Imaged (s : State) (p : Pass) (o : Nat) (dots : List Rows) (others : List Nat) (p' : Pass) (pool' : Pool) :
    Prop where
  wf : pool'.wf = true
  length : p'.slots.length = p.slots.length
  kept : ∀ j, (p.slots.getD j none).isSome = true → p'.slots.getD j none = p.slots.getD j none
  count : pool'.freeCount + (absentSlots p o dots.length).length = s.pool.freeCount
  shared : Shared pool'.free (p'.slots.filterMap id ++ others)
  image : ∀ c, passColumn pool' p' c
    = if o ≤ c ∧ c < o + dots.length then (passColumn s.pool p c).merge (dots.getD (c - o) 0#24)
      else passColumn s.pool p c
  others : Agree s.pool pool' others

theorem imaged (hwf : s.pool.wf = true) (hsound : passSound p = true) {others : List Nat}
    (hshared : Shared s.pool.free (p.slots.filterMap id ++ others)) {dots : List Rows} (hk : 1 ≤ dots.length)
    (hk' : dots.length ≤ 64) (hfit : o + dots.length ≤ p.span)
    (hroom : (absentSlots p o dots.length).length ≤ s.pool.freeCount) :
    Imaged s p o dots others (imagedPass s p o dots.length) (imagedPool s p o dots.length dots) := by
  have hfill := image_filled hsound hk hk' hfit hroom
  have hslots : (imagedPass s p o dots.length).slots
      = (allocate (absentSlots p o dots.length) s.pool p.slots).2 := rfl
  have hfilled := hfill.shared others hshared
  obtain ⟨hnodup, -, hapart⟩ := List.nodup_append.1 hfilled.1
  have hmerge : MergedFrom o dots (imagedPass s p o dots.length)
      (allocate (absentSlots p o dots.length) s.pool p.slots).1 (imagedPool s p o dots.length dots) := by
    refine mergeColumns_merged hnodup (hfill.wf hwf) fun c hc hc' => ?_
    have hplace : ((imagedPass s p o dots.length).slots.getD (c / 64) none).isSome = true := by
      rw [hslots]
      by_cases hin : c / 64 ∈ absentSlots p o dots.length
      · exact hfill.given _ hin
      · rw [hfill.kept _ hin]
        have htouch : c / 64 ∈ touchedSlots o dots.length := (mem_touchedSlots hk hk' _).2 (by omega)
        by_contra hnone
        exact hin (List.mem_filter.2 ⟨htouch, by simpa using hnone⟩)
    simpa [Pass.address, Config.blockColumns] using hplace
  refine ⟨hmerge.wf, hfill.length, fun j hj => hfill.kept j fun hin => ?_, ?_, ?_, fun c => ?_, ?_⟩
  · have := (List.mem_filter.1 hin).2
    simp_all
  · rw [← hfill.count, Pool.freeCount, Pool.freeCount, Pool.freeList, Pool.freeList, hmerge.free]
  · rw [hmerge.free, hslots]
    exact hfilled
  · have himage : ∀ c, passColumn (allocate (absentSlots p o dots.length) s.pool p.slots).1
        (imagedPass s p o dots.length) c = passColumn s.pool p c := fun c => hfill.image others hshared p c
    rw [hmerge.image, himage]
  · exact (hfill.others others hshared).trans (hmerge.others _ fun b hb hb' => hapart b hb b hb' rfl)

end

/-! ## What an IMAGE keeps -/

theorem updateEntry_map {α : Type} {f : Entry → Entry} {g : Entry → α} (h : ∀ e, g (f e) = g e) (q : List Entry)
    (tag : Byte) : (updateEntry q tag f).map g = q.map g := by
  rw [updateEntry, List.map_map]
  refine List.map_congr_left fun e _ => ?_
  simp only [Function.comp_apply]
  split
  · exact h e
  · rfl

theorem mem_updateEntry {f : Entry → Entry} {q : List Entry} {tag : Byte} {e : Entry} (hq : (q.map Entry.tag).Nodup)
    (hfind : findEntry q tag = some e) {x : Entry} (hx : x ∈ updateEntry q tag f) :
    x = f e ∨ x ∈ q.filter fun y => y.tag != tag :=
  List.mem_cons.1 ((perm_updateEntry hq hfind f).subset hx)

/-- An entry that has not been taken up is not a head that has. -/
theorem head_ne_of_find {s : State} {tag : Byte} {e : Entry} (hfind : findEntry s.queue tag = some e)
    (he : e.state.started = false) (hstart : HeadStarted s) : ∃ h, s.queue.head? = some h ∧ h.tag ≠ tag := by
  obtain ⟨h, hh, hhstart⟩ := hstart
  refine ⟨h, hh, fun heq => ?_⟩
  obtain ⟨rest, hcons⟩ := List.head?_eq_some_iff.1 hh
  have : findEntry s.queue tag = some h := by simp [findEntry, hcons, heq]
  obtain rfl := Option.some.inj (this.symm.trans hfind)
  exact Bool.false_ne_true (he.symm.trans hhstart)

theorem head_updateEntry {q : List Entry} {h : Entry} (hh : q.head? = some h) {tag : Byte} (hne : h.tag ≠ tag)
    {f : Entry → Entry} : (updateEntry q tag f).head? = some h := by
  obtain ⟨rest, rfl⟩ := List.head?_eq_some_iff.1 hh
  simp [updateEntry, hne]

/-- The states and tags of the queue decide whether it is sound and who is taken up. -/
theorem queueSound_of_tags {s t : State} (h : t.queue.map Entry.tag = s.queue.map Entry.tag)
    (h' : t.queue.map Entry.state = s.queue.map Entry.state) (hs : queueSound s = true) : queueSound t = true := by
  obtain ⟨hlen, htags, hopen⟩ := (queueSound_iff s).1 hs
  have hcount : ∀ q : List Entry, q.countP (fun e => e.state == .opened)
      = (q.map Entry.state).countP (fun x => x == .opened) := fun q => by rw [List.countP_map]; rfl
  have hlength := congrArg List.length h
  simp only [List.length_map] at hlength
  refine (queueSound_iff t).2 ⟨by omega, h ▸ htags, ?_⟩
  rw [hcount, h', ← hcount]
  exact hopen

theorem headOnlySound_of_states {s t : State} (h : t.queue.map Entry.state = s.queue.map Entry.state)
    (hs : headOnlySound s = true) : headOnlySound t = true := by
  have hall : ∀ u : State, headOnlySound u = ((u.queue.map Entry.state).tail.all fun x => !x.started) := fun u => by
    rw [← List.map_tail, List.all_map]; rfl
  rw [hall, h, ← hall]
  exact hs

section
variable {s : State} {tag : Byte} {e : Entry} {p : Pass} {o : Nat} {dots : List Rows}

/-- The image of an entry still OPEN, which has no masks, is counted: it bears no marks. -/
theorem Imaged.counted {others : List Nat} {pool' : Pool}
    (h : Imaged s p o dots others (imagedPass s p o dots.length) pool') (hsup : p.suppressed = none)
    (hcounted : passCounted s.pool p = true) : passCounted pool' (imagedPass s p o dots.length) = true := by
  obtain ⟨hblank, hnone, hfired, hlost⟩ := (passCounted_unmasked hsup).1 hcounted
  have hcol : ∀ c, (passColumn pool' (imagedPass s p o dots.length) c).fired = (passColumn s.pool p c).fired
      ∧ (passColumn pool' (imagedPass s p o dots.length) c).lost = (passColumn s.pool p c).lost := fun c => by
    rw [h.image]
    split
    · exact ⟨rfl, rfl⟩
    · exact ⟨rfl, rfl⟩
  have hsum : ∀ f : Column → Rows,
      (∀ c, f (passColumn pool' (imagedPass s p o dots.length) c) = f (passColumn s.pool p c)) →
      sumRows pool' (imagedPass s p o dots.length) f = sumRows s.pool p f := fun f hf => by
    simp only [sumRows, hf]; rfl
  refine (passCounted_unmasked (p := imagedPass s p o dots.length) hsup).2 ⟨fun c hc => ?_, hnone, ?_, ?_⟩
  · rw [(hcol c).1, (hcol c).2]
    exact hblank c hc
  · rw [hsum _ fun c => (hcol c).1]
    exact hfired
  · rw [hsum _ fun c => (hcol c).2]
    exact hlost

theorem keeps_carryImage (hfind : findEntry s.queue tag = some e) (hopen : e.state = .opened) (hpass : e.pass = some p)
    (hk : 1 ≤ dots.length) (hk' : dots.length ≤ 64) (hfit : o + dots.length ≤ p.span)
    (hroom : (absentSlots p o dots.length).length ≤ s.pool.freeCount) :
    Keeps s (carryImage tag p o dots (absentSlots p o dots.length) s) := by
  have himaged : queueSound s = true → poolSound s = true → Imaged s p o dots
      (heldBlocks (s.queue.filter fun x => x.tag != tag)) (imagedPass s p o dots.length)
      (imagedPool s p o dots.length dots) := fun hq hp =>
    imaged ((poolSound_iff s).1 hp).1 (passSound_of_find hp hfind hpass) (shared_of_find hq hp hfind hpass) hk hk' hfit
      hroom
  have htag : ∀ {q : List Entry} (x : Entry), x ∈ q.filter (fun y => y.tag != tag) → x ∈ q ∧ x.tag ≠ tag :=
    fun x hx => by simpa using hx
  have hqueue : (carryImage tag p o dots (absentSlots p o dots.length) s).queue
      = updateEntry s.queue tag fun e => { e with pass := some (imagedPass s p o dots.length) } := rfl
  have hpool : (carryImage tag p o dots (absentSlots p o dots.length) s).pool = imagedPool s p o dots.length dots := rfl
  have hstates := updateEntry_map (f := fun e => { e with pass := some (imagedPass s p o dots.length) })
    (g := Entry.state) (fun _ => rfl) s.queue tag
  have hnames := updateEntry_map (f := fun e => { e with pass := some (imagedPass s p o dots.length) })
    (g := Entry.tag) (fun _ => rfl) s.queue tag
  refine ⟨⟨queueSound_of_tags hnames hstates, headOnlySound_of_states hstates, id,
    fun hq hp => ?_⟩, fun hq hp a => ?_⟩
  · obtain ⟨-, htags, -⟩ := (queueSound_iff s).1 hq
    have him := himaged hq hp
    have hsound := passSound_of_find hp hfind hpass
    refine (poolSound_iff _).2 ⟨him.wf, fun f hf q hfq => ?_, ?_⟩
    · rcases mem_updateEntry htags hfind hf with rfl | hf
      · obtain rfl := Option.some.inj hfq
        obtain ⟨hlen, hspan⟩ := (passSound_iff p).1 hsound
        exact (passSound_iff _).2 ⟨him.length.trans hlen, hspan⟩
      · exact ((poolSound_iff s).1 hp).2.1 f (htag f hf).1 q hfq
    · refine him.shared.perm ?_
      have := heldBlocks_perm (perm_updateEntry htags hfind
        fun e => { e with pass := some (imagedPass s p o dots.length) })
      rw [heldBlocks_cons, Entry.blocks_of_pass rfl] at this
      exact this.symm
  · obtain ⟨-, htags, -⟩ := (queueSound_iff s).1 hq
    have him := himaged hq hp
    obtain ⟨hcounted, hsup⟩ := a.counted e (findEntry_tag hfind).1 p hpass
    have hothers : ∀ f ∈ s.queue, f.tag ≠ tag → Agree s.pool (imagedPool s p o dots.length dots) f.blocks :=
      fun f hf hne k hk => him.others k (mem_heldBlocks.2 ⟨f, List.mem_filter.2 ⟨hf, by simpa using hne⟩, hk⟩)
    refine a.requeue (fun f hf q hfq => ?_) rfl rfl rfl (.inr rfl) a.lookAhead id ?_
    · rcases mem_updateEntry htags hfind hf with rfl | hf
      · obtain rfl := Option.some.inj hfq
        exact ⟨him.counted (hsup hopen) hcounted, fun _ => hsup hopen⟩
      · obtain ⟨hf, hne⟩ := htag f hf
        have hagree := hothers f hf hne
        rw [Entry.blocks_of_pass hfq] at hagree
        rw [hpool, passCounted_agree hagree]
        exact a.counted f hf q hfq
    · by_cases hstart : HeadStarted s
      · obtain ⟨h, hh, hne⟩ := head_ne_of_find hfind (by rw [hopen]; rfl) hstart
        exact .inr ⟨h, hh, head_updateEntry hh hne, hothers h (List.mem_of_mem_head? hh) hne⟩
      · have hdue := a.of_not_started hstart
        exact .inl ⟨hdue.owed, hdue.advance, fun hs => absurd (hdue.sweep.symm.trans hs) Bool.false_ne_true⟩

end

end Sys2Proof.Machine
end

section
/-! The requests and the resets: what they keep of the queue, the pool and the account of the dots. -/

namespace Sys2Proof.Machine

/-! ## A queue made empty -/

/-- No entry is queued, and nothing works for one. -/
structure Emptied (t : State) : Prop where
  queue : t.queue = []
  pendA : t.driver.pendA = none
  pendB : t.driver.pendB = none
  orphan : ∀ r, t.driver.running = some r → r.burst.orphan = true
  sweep : sweeping t = false
  headPlan : t.runner.headPlan = none
  lookAhead : t.runner.lookAhead = none
  advance : advancingHead t = false

theorem Emptied.owed {t : State} (h : Emptied t) : owedBursts t = [] := by
  have hpend : owedPending t.driver = [] := by simp [owedPending, h.pendA, h.pendB]
  cases hr : t.driver.running with
  | none => rw [owedBursts_of_free hr, hpend]
  | some r => rw [owedBursts_of_running hr, hpend]; simp [owes, h.orphan r hr]

theorem Emptied.account {t : State} (h : Emptied t) : Account t where
  counted e he := by simp [h.queue] at he
  pendA b hb := by simp [h.pendA] at hb
  pendB b hb := by simp [h.pendB] at hb
  owed x hx := by simp [h.owed] at hx
  apart := by simp [owedKeys, h.owed]
  sweep hs := absurd (h.sweep.symm.trans hs) Bool.false_ne_true
  headPlan p hp := by simp [h.headPlan] at hp
  lookAhead p hp := by simp [h.lookAhead] at hp
  advance hadv := absurd (h.advance.symm.trans hadv) Bool.false_ne_true

theorem Emptied.keeps {s t : State} (h : Emptied t) (hrec : recordsSound s = true → recordsSound t = true)
    (hpool : poolSound s = true → t.pool.wf = true ∧ Shared t.pool.free []) : Keeps s t where
  queue _ := (queueSound_iff t).2 (by simp [h.queue])
  head _ := (headOnlySound_iff t).2 (by simp [h.queue])
  records := hrec
  pool _ hp := (poolSound_iff t).2 ⟨(hpool hp).1, by simp [h.queue], by simpa [h.queue] using (hpool hp).2⟩
  dots _ _ _ := h.account

/-! ## Resets -/

theorem shared_reset : Shared Pool.reset.free [] :=
  ⟨List.nodup_nil, nofun, fun b hb => by
    simp only [Pool.reset, BitVec.getLsbD_allOnes, hb, decide_true, List.not_mem_nil, not_false_eq_true]⟩

theorem keeps_warmValues (s : State) : Keeps s (warmValues s) := by
  have h : Emptied (warmValues s) := ⟨rfl, rfl, rfl, nofun, rfl, rfl, rfl, rfl⟩
  exact h.keeps (fun _ => rfl) fun _ => ⟨rfl, shared_reset⟩

theorem keeps_powerOnReset (l : Levels) (s : State) : Keeps s (powerOnReset l s) := by
  have h : Emptied ((State.reset.setPending s.pending).setPins
      { strapB := l.strapB, strapA := l.strapA, homeCovered := l.homeCovered, paperSeen := l.paperSeen,
        coverOpen := l.coverOpen, driveFault := l.driveFault, encA := l.encA, encB := l.encB, resetLow := false }) :=
    ⟨rfl, rfl, rfl, nofun, rfl, rfl, rfl, rfl⟩
  exact (h.keeps (s := s) (fun _ => rfl) fun _ => ⟨rfl, shared_reset⟩).quiet (Quiet.refl _).endReset

theorem keeps_resetNAssert (s : State) : Keeps s (resetNAssert s) := by
  unfold resetNAssert
  split
  · exact .refl s
  · exact (keeps_warmValues s).quiet (Quiet.refl _).setPins

theorem keeps_resetNRelease (b a : Bool) (s : State) : Keeps s (resetNRelease b a s) := by
  unfold resetNRelease
  split
  · exact (Quiet.refl s).setPins.endReset.keeps
  · exact .refl s

theorem keeps_warmReset (b a : Bool) (s : State) : Keeps s (warmReset b a s) := by
  unfold warmReset
  split
  · exact (keeps_warmValues s).quiet (Quiet.refl _).endReset
  · exact .refl s

theorem keeps_replySent (s : State) : Keeps s (replySent s) := by
  unfold replySent
  split
  · exact keeps_warmReset ..
  · exact (Quiet.refl s).setLink.keeps

/-! ## ABORT -/

theorem recordsSound_recordAborted {s : State} (h : recordsSound s = true) : recordsSound (recordAborted s) = true := by
  unfold recordAborted
  split
  · exact h
  · split
    · exact (recordsSound_iff _).2 (pushRecord_length _ _)
    · exact h

theorem emptyQueue_pool {s : State} (h : poolSound s = true) :
    (emptyQueue s).pool.wf = true ∧ Shared (emptyQueue s).pool.free [] := by
  obtain ⟨hwf, -, hshared⟩ := (poolSound_iff s).1 h
  have hpool : (emptyQueue s).pool = s.pool.releaseAll (s.queue.flatMap Entry.slots) := by
    simp [emptyQueue, freeEntries_eq]
  rw [hpool]
  exact ⟨Pool.releaseAll_wf hwf _, Shared.releaseAll (by rw [List.append_nil]; exact hshared)⟩

theorem abortCarriage_driver (s : State) : (abortCarriage s).driver.pendA = none ∧ (abortCarriage s).driver.pendB = none
    ∧ (abortCarriage s).driver.running
      = s.driver.running.map fun r => { r with burst := { r.burst with orphan := true } } := by
  unfold abortCarriage
  dsimp only
  split
  · exact ⟨rfl, rfl, rfl⟩
  · exact ⟨rfl, rfl, rfl⟩

theorem abortCarriage_sweep (s : State) : sweeping (abortCarriage s) = false := by
  unfold abortCarriage
  dsimp only
  split
  · rename_i hrest
    exact sweeping_of_atRest hrest
  · rfl

theorem advancingHead_stopPaper (s : State) : advancingHead (stopPaper .abort s) = false := by
  unfold stopPaper
  split
  · simp [advancingHead, ‹s.paper.motion = none›]
  · rename_i m _
    cases m.stop <;> simp [advancingHead, Motion.aborted]

theorem emptied_abort {s : State} (hq : s.queue = []) (hplan : s.runner.headPlan = none)
    (hahead : s.runner.lookAhead = none) : Emptied (stopPaper .abort (abortCarriage s)) where
  queue := by simpa using hq
  pendA := by simp [abortCarriage_driver]
  pendB := by simp [abortCarriage_driver]
  orphan r hr := by
    simp only [stopPaper_frame, abortCarriage_driver, Option.map_eq_some_iff] at hr
    obtain ⟨r', -, rfl⟩ := hr
    rfl
  sweep := by simpa [sweeping] using abortCarriage_sweep s
  headPlan := by simpa using hplan
  lookAhead := by simpa using hahead
  advance := advancingHead_stopPaper _

theorem keeps_abortAll (s : State) : Keeps s (abortAll s) := by
  have hstop : ∀ x : Runner, x.headPlan = none → x.lookAhead = none →
      Keeps s (stopPaper .abort (abortCarriage ((emptyQueue (recordAborted s)).setRunner x))) := by
    intro x hplan hahead
    refine (emptied_abort (by simp [emptyQueue]) hplan hahead).keeps (fun hs => ?_) fun hs => ?_
    · have := recordsSound_recordAborted hs
      simpa [recordsSound] using this
    · have := emptyQueue_pool (s := recordAborted s) (by simpa [poolSound] using hs)
      simpa using this
  unfold abortAll
  dsimp only
  split
  · exact hstop _ rfl rfl
  · exact (hstop _ rfl rfl).quiet (Quiet.refl _).latch

/-! ## An entry that joins -/

theorem passCounted_blank {pool : Pool} {p : Pass} (hslots : p.slots.filterMap id = []) (hsup : p.suppressed = none)
    (hzero : p.dotsFired = 0 ∧ p.dotsSuppressed = 0 ∧ p.dotsLost = 0) : passCounted pool p = true := by
  have hblank : ∀ c, passColumn pool p c = Column.blank := fun c => by
    rw [passColumn_slot]
    cases h : p.slots.getD (c / 64) none with
    | none => rfl
    | some b => exact absurd (mem_of_getD_some h) (by rw [hslots]; exact List.not_mem_nil)
  obtain ⟨hfired, hnone, hlost⟩ := hzero
  refine (passCounted_unmasked hsup).2 ⟨fun c _ => by rw [hblank]; exact ⟨rfl, rfl⟩, hnone, ?_, ?_⟩
  · rw [hfired, sumRows_zero fun c _ => by rw [hblank]; rfl]
  · rw [hlost, sumRows_zero fun c _ => by rw [hblank]; rfl]

/-- An entry that may join the queue: its tag is free, there is room, it has not been taken up, it holds no block and no
mark, and it is the one OPEN entry if it is OPEN. -/
structure MayJoin (s : State) (e : Entry) : Prop where
  tag : ∀ f ∈ s.queue, f.tag ≠ e.tag
  room : s.queue.length < 8
  state : e.state.started = false
  opened : e.state = .opened → ∀ f ∈ s.queue, f.state ≠ .opened
  blocks : e.blocks = []
  pass : ∀ p, e.pass = some p → passSound p = true ∧ p.suppressed = none
    ∧ (p.dotsFired = 0 ∧ p.dotsSuppressed = 0 ∧ p.dotsLost = 0)

theorem keeps_join {s : State} {e : Entry} (h : MayJoin s e) : Keeps s (s.setQueue (s.queue ++ [e])) where
  queue hq := by
    obtain ⟨hlen, htags, hopen⟩ := (queueSound_iff s).1 hq
    refine (queueSound_iff _).2 ⟨?_, ?_, ?_⟩
    · have := h.room
      simp only [setQueue_queue, List.length_append, List.length_singleton]; omega
    · simp only [setQueue_queue, List.map_append, List.map_singleton]
      refine List.nodup_append.2 ⟨htags, List.nodup_singleton _, fun a ha b hb => ?_⟩
      obtain ⟨f, hf, rfl⟩ := List.mem_map.1 ha
      obtain rfl := List.mem_singleton.1 hb
      exact h.tag f hf
    · simp only [setQueue_queue, List.countP_append, List.countP_singleton]
      by_cases ho : e.state = .opened
      · have hnone : s.queue.countP (fun f => f.state == .opened) = 0 :=
          List.countP_eq_zero.2 fun f hf => by simpa using h.opened ho f hf
        rw [hnone]; split <;> omega
      · simpa [ho] using hopen
  head hh := by
    rw [headOnlySound_iff] at hh ⊢
    intro f hf
    rw [setQueue_queue] at hf
    cases hs : s.queue with
    | nil => simp [hs] at hf
    | cons x rest =>
      rw [hs] at hf
      rcases List.mem_append.1 (show f ∈ rest ++ [e] from hf) with hf | hf
      · exact hh f (by rw [hs]; exact hf)
      · obtain rfl := List.mem_singleton.1 hf
        exact h.state
  records := id
  pool _ hp := by
    obtain ⟨hwf, hpass, hshared⟩ := (poolSound_iff s).1 hp
    refine (poolSound_iff _).2 ⟨hwf, fun f hf p hfp => ?_, ?_⟩
    · rcases List.mem_append.1 hf with hf | hf
      · exact hpass f hf p hfp
      · obtain rfl := List.mem_singleton.1 hf
        exact (h.pass p hfp).1
    · simpa [h.blocks] using hshared
  dots _ _ a := by
    refine a.requeue (fun f hf p hfp => ?_) rfl rfl rfl (.inr rfl) a.lookAhead id ?_
    · rcases List.mem_append.1 hf with hf | hf
      · exact a.counted f hf p hfp
      · obtain rfl := List.mem_singleton.1 hf
        obtain ⟨-, hsup, hzero⟩ := h.pass p hfp
        have hblocks := h.blocks
        rw [Entry.blocks_of_pass hfp] at hblocks
        exact ⟨passCounted_blank hblocks hsup hzero, fun _ => hsup⟩
    · by_cases hstart : HeadStarted s
      · obtain ⟨f, hf, -⟩ := hstart
        obtain ⟨rest, hcons⟩ := List.head?_eq_some_iff.1 hf
        exact .inr ⟨f, hf, by rw [setQueue_queue, hcons]; rfl, fun _ _ => rfl⟩
      · have hdue := a.of_not_started hstart
        exact .inl ⟨hdue.owed, hdue.advance, fun hs => absurd (hdue.sweep.symm.trans hs) Bool.false_ne_true⟩

/-! ## An entry that is closed or cancelled -/

/-- One entry holds a tag. -/
theorem eq_of_tag {q : List Entry} {tag : Byte} {e x : Entry} (hq : (q.map Entry.tag).Nodup)
    (hfind : findEntry q tag = some e) (hx : x ∈ q) (htag : x.tag = tag) : x = e :=
  List.inj_on_of_nodup_map hq hx (findEntry_tag hfind).1 (htag.trans (findEntry_tag hfind).2.symm)

/-- Closing the OPEN entry of a tag, where tags are distinct. -/
theorem quiet_closeEntry {s : State} {tag : Byte} {e : Entry} (hq : queueSound s = true)
    (hfind : findEntry s.queue tag = some e) (hopen : e.state = .opened) :
    Quiet s (s.setQueue (updateEntry s.queue tag closeEntry)) := by
  obtain ⟨-, htags, -⟩ := (queueSound_iff s).1 hq
  have hclose : updateEntry s.queue tag closeEntry
      = s.queue.map fun x => if x.tag = tag ∧ x.state = .opened then closeEntry x else x := by
    refine List.map_congr_left fun x hx => ?_
    by_cases htag : x.tag = tag
    · obtain rfl := eq_of_tag htags hfind hx htag
      simp [htag, hopen]
    · simp [htag]
  rw [hclose]
  refine (Quiet.refl s).setQueue (.map (fun x => ?_) _)
  split
  · exact closeEntry_kin (by simp_all)
  · exact .refl x

theorem keeps_closeEntry {s : State} {tag : Byte} {e : Entry} (hfind : findEntry s.queue tag = some e)
    (hopen : e.state = .opened) : Keeps s (s.setQueue (updateEntry s.queue tag closeEntry)) where
  queue hq := (quiet_closeEntry hq hfind hopen).keeps.queue hq
  head hh := by
    rw [headOnlySound_iff] at hh ⊢
    intro f hf
    rw [setQueue_queue, updateEntry, ← List.map_tail] at hf
    obtain ⟨x, hx, rfl⟩ := List.mem_map.1 hf
    split
    · rfl
    · exact hh x hx
  records := id
  pool hq := (quiet_closeEntry hq hfind hopen).keeps.pool hq
  dots hq := (quiet_closeEntry hq hfind hopen).keeps.dots hq

theorem head_filter {q : List Entry} {h : Entry} (hh : q.head? = some h) {tag : Byte} (hne : h.tag ≠ tag) :
    (q.filter fun x => x.tag != tag).head? = some h := by
  obtain ⟨rest, rfl⟩ := List.head?_eq_some_iff.1 hh
  simp [hne]

/-- An entry that has not been taken up leaves the queue. -/
theorem keeps_removeEntry {s : State} {tag : Byte} {e : Entry} (hfind : findEntry s.queue tag = some e)
    (he : e.state.started = false) : Keeps s (removeEntry e s) := by
  obtain ⟨-, rfl⟩ := findEntry_tag hfind
  have hperm : queueSound s = true → s.queue.Perm (e :: (removeEntry e s).queue) := fun hq =>
    perm_of_findEntry ((queueSound_iff s).1 hq).2.1 hfind
  refine ⟨preserves_leave hperm List.filter_sublist rfl id, fun hq hp a => ?_⟩
  refine a.requeue (counted_leave a (hperm hq) hp) rfl rfl rfl (.inr rfl) a.lookAhead id ?_
  by_cases hstart : HeadStarted s
  · obtain ⟨h, hh, hne⟩ := head_ne_of_find hfind he hstart
    have hmem : h ∈ (removeEntry e s).queue := List.mem_filter.2 ⟨List.mem_of_mem_head? hh, by simpa using hne⟩
    exact .inr ⟨h, hh, head_filter hh hne, agree_leave (hperm hq) hp hmem⟩
  · have hdue := a.of_not_started hstart
    exact .inl ⟨hdue.owed, hdue.advance, fun hs => absurd (hdue.sweep.symm.trans hs) Bool.false_ne_true⟩

/-! ## The requests -/

/-- An owner that keeps the queue, the records, the pool and the account of the dots. -/
def KeepsDots (owner : State → Verdict) : Prop := ∀ s, Keeps s (owner s).state

theorem keepsDots_refuse (c : ResultCode) : KeepsDots (refuse c) := .refl

theorem keepsDots_reqIdentify : KeepsDots reqIdentify := .refl

theorem keepsDots_reqGetStatus : KeepsDots reqGetStatus := .refl

theorem keepsDots_reqReadEvents : KeepsDots reqReadEvents := fun s => by
  refine Quiet.keeps { Quiet.refl s with records := fun hr => ?_ }
  rw [recordsSound_iff] at hr ⊢
  simp only [reqReadEvents, setEvents_events, List.length_drop]
  omega

theorem keepsDots_reqSetAttnMask (m : Word) : KeepsDots (reqSetAttnMask m) := fun s =>
  ((Quiet.refl s).of_work (u := (reqSetAttnMask m s).state) rfl).keeps

theorem keepsDots_reqReset : KeepsDots reqReset := fun s => (Quiet.refl s).setLink.keeps

theorem keepsDots_reqSetMech (r : MechRequest) : KeepsDots (reqSetMech r) := fun s => by
  unfold reqSetMech
  split
  · exact .refl s
  split
  · exact .refl s
  split
  · exact ((Quiet.refl s).of_work (u := s.setMech (mechOf r)) rfl).keeps
  · exact .refl s

theorem keepsDots_reqSetPinMap (outs : List Byte) : KeepsDots (reqSetPinMap outs) := fun s => by
  unfold reqSetPinMap
  split
  · exact .refl s
  split
  · exact .refl s
  split
  · exact ((Quiet.refl s).of_work (u := s.setDriver { s.driver with pinMap := outs.map BitVec.toNat }) rfl).keeps
  · exact .refl s

theorem Quiet.stopTear {s t : State} (h : Quiet s t) : Quiet s (Machine.stopTear t) := h.setTime

theorem Quiet.zeroY {s t : State} (h : Quiet s t) : Quiet s (Machine.zeroY t) := h.setPaper

theorem Quiet.dropPark {s t : State} (h : Quiet s t) : Quiet s (Machine.dropPark t) := h.setPaper

theorem Quiet.storeForm {s t : State} (h : Quiet s t) {slot : Nat} {p : Profile} :
    Quiet s (Machine.storeForm slot p t) := by
  unfold Machine.storeForm
  dsimp only
  split
  · exact (h.setForms.setPaper).stopTear.settleTear
  · exact h.setForms

theorem keepsDots_reqDefineForm (r : FormRequest) : KeepsDots (reqDefineForm r) := fun s => by
  unfold reqDefineForm
  split
  · exact .refl s
  split
  · exact .refl s
  split
  · exact .refl s
  split
  · split
    · exact .refl s
    dsimp only
    split
    · exact .refl s
    · exact (Quiet.refl s).storeForm.keeps
  · exact .refl s

theorem keepsDots_reqReadForm (slot : Byte) : KeepsDots (reqReadForm slot) := fun s => by
  unfold reqReadForm
  split
  · exact .refl s
  split
  · exact .refl s
  · exact .refl s

theorem keepsDots_reqSelectForm (slot : Byte) : KeepsDots (reqSelectForm slot) := fun s => by
  unfold reqSelectForm
  split
  · exact .refl s
  split
  · exact .refl s
  split
  · exact .refl s
  · exact (Quiet.refl s).setForms.zeroY.dropPark.stopTear.settleTear.keeps

theorem keepsDots_reqSetTof : KeepsDots reqSetTof := fun s => by
  unfold reqSetTof
  split
  · exact .refl s
  · exact (Quiet.refl s).zeroY.dropPark.settleTear.keeps

theorem keepsDots_reqHome : KeepsDots reqHome := fun s => by
  unfold reqHome
  split
  · exact .refl s
  split
  · exact .refl s
  · exact (Quiet.refl s).homingOrder.settleTear.keeps

theorem keepsDots_reqPause : KeepsDots reqPause := fun s => (Quiet.refl s).setPause.suspendTrigger.settleTear.keeps

theorem keepsDots_reqResume : KeepsDots reqResume := fun s => (Quiet.refl s).setPause.settleTear.keeps

theorem keepsDots_reqAbort : KeepsDots reqAbort := fun s => (keeps_abortAll s).quiet (Quiet.refl _).settleTear

theorem keepsDots_reqClearFault : KeepsDots reqClearFault := fun s => by
  unfold reqClearFault
  split
  · exact .refl s
  split
  · exact .refl s
  dsimp only
  split
  · exact (Quiet.refl s).setRunner.settleTear.keeps
  · exact ((Quiet.refl s).setRunner (x := { s.runner with fault := none })).setRunner.giveOwedHoming.settleTear.keeps

/-- The entry that OPEN_PASS appends may join a queue without an OPEN entry. -/
theorem mayJoin_newPass {s t : State} {d : Density} {pref : Preference} {r : PassRequest}
    (hstart : r.start.toNat < d.limit) (hspan : 1 ≤ r.span.toNat) (htag : ∀ f ∈ t.queue, f.tag ≠ r.tag)
    (hroom : t.queue.length < 8) (hopen : ∀ f ∈ t.queue, f.state ≠ .opened) :
    MayJoin t (newPass d pref (min r.span.toNat (d.limit - r.start.toNat)) r s) where
  tag := htag
  room := hroom
  state := rfl
  opened _ := hopen
  blocks := by rw [Entry.blocks_of_pass rfl]; rfl
  pass p hp := by
    obtain rfl := Option.some.inj hp
    refine ⟨(passSound_iff _).2 ⟨rfl, ?_, ?_⟩, rfl, rfl, rfl, rfl⟩
    · dsimp only; omega
    · dsimp only; omega

theorem mem_closeOpen {q : List Entry} {f : Entry} (h : f ∈ closeOpen q) :
    f.state ≠ .opened ∧ ∃ e ∈ q, f.tag = e.tag := by
  obtain ⟨e, he, rfl⟩ := List.mem_map.1 h
  split
  · exact ⟨nofun, e, he, rfl⟩
  · exact ⟨‹_›, e, he, rfl⟩

theorem keepsDots_reqOpenPass (r : PassRequest) : KeepsDots (reqOpenPass r) := fun s => by
  unfold reqOpenPass
  split
  · rename_i d pref _ _
    split
    · exact .refl s
    rename_i hrange
    split
    · exact .refl s
    rename_i hdup
    split
    · exact .refl s
    rename_i hfull
    have htag : ∀ f ∈ s.queue, f.tag ≠ r.tag := findEntry_eq_none.1 (by simpa using hdup)
    have hjoin : MayJoin (s.setQueue (closeOpen s.queue)) (newPass d
        (if pref = .rev ∧ (activeProfile s).bidir = false then .fwd else pref)
        (min r.span.toNat (d.limit - r.start.toNat)) r s) := by
      refine mayJoin_newPass (by omega) (by omega) (fun f hf => ?_) ?_ fun f hf => (mem_closeOpen hf).1
      · obtain ⟨-, e, he, heq⟩ := mem_closeOpen hf
        exact heq ▸ htag e he
      · rw [setQueue_queue, closeOpen, List.length_map]
        simpa [Config.queueCapacity] using hfull
    exact ((Quiet.refl s).closeOpen.keeps.trans (keeps_join hjoin)).quiet (Quiet.refl _).setTime.settleTear
  · exact .refl s

theorem keepsDots_reqQueueAdvance (tag : Byte) (n : Half) (flags : Byte) : KeepsDots (reqQueueAdvance tag n flags) :=
  fun s => by
    unfold reqQueueAdvance
    split
    · exact .refl s
    rename_i hdup
    split
    · exact .refl s
    rename_i hfull
    refine Keeps.quiet (keeps_join ?_) (Quiet.refl _).settleTear
    refine ⟨findEntry_eq_none.1 (by simpa using hdup), by simpa [Config.queueCapacity] using hfull, rfl,
      fun h => ?_, rfl, fun p h => ?_⟩
    · exact nomatch h
    · exact nomatch h

theorem keepsDots_reqClosePass (tag : Byte) : KeepsDots (reqClosePass tag) := fun s => by
  unfold reqClosePass
  split
  · exact .refl s
  · split
    · exact (keeps_closeEntry ‹_› ‹_›).quiet (Quiet.refl _).stopWindow
    · exact .refl s

theorem keepsDots_reqCancelEntry (tag : Byte) : KeepsDots (reqCancelEntry tag) := fun s => by
  unfold reqCancelEntry
  split
  · exact .refl s
  · rename_i e hfind
    split
    · rename_i hstate
      have hremove := keeps_removeEntry (s := stopWindow s) (tag := tag) (e := e) hfind (by rw [hstate]; rfl)
      exact ((Quiet.refl s).stopWindow.keeps.trans hremove).quiet (Quiet.refl _).settleTear
    · rename_i hstate
      split
      · exact .refl s
      · exact (keeps_removeEntry hfind (by rw [hstate]; rfl)).quiet (Quiet.refl _).settleTear
    all_goals exact .refl s

theorem keepsDots_reqImage (tag : Byte) (o : Half) (k : Byte) (data : List Byte) : KeepsDots (reqImage tag o k data) :=
  fun s => by
    unfold reqImage
    split
    · exact .refl s
    rename_i hlen
    split
    · exact .refl s
    rename_i e hfind
    split
    · exact .refl s
    rename_i hopen
    split
    · exact .refl s
    rename_i p hpass
    split
    · exact .refl s
    rename_i hrange
    dsimp only
    split
    · exact .refl s
    rename_i hroom
    have hdots : ((columnsOf data).take (min k.toNat (p.span - o.toNat))).length = min k.toNat (p.span - o.toNat) := by
      rw [List.length_take, columnsOf_length k.toNat data (by simpa using hlen)]; omega
    have hcarry := keeps_carryImage (o := o.toNat)
      (dots := (columnsOf data).take (min k.toNat (p.span - o.toNat))) hfind (by simpa using hopen)
      hpass (by omega) (by omega) (by omega)
    rw [hdots] at hcarry
    exact hcarry (Nat.le_of_not_lt hroom)

/-! ## Taking a request -/

theorem keepsDots_noPayload {owner : State → Verdict} (h : KeepsDots owner) (payload : List Byte) :
    KeepsDots (noPayload owner payload) := by
  cases payload with
  | nil => exact h
  | cons => exact keepsDots_refuse _

theorem keepsDots_onePayload {owner : Byte → State → Verdict} (h : ∀ b, KeepsDots (owner b)) (payload : List Byte) :
    KeepsDots (onePayload owner payload) := by
  unfold onePayload
  split
  · exact h _
  · exact keepsDots_refuse _

theorem keepsDots_readPayload {α : Type} {read : List Byte → Option α} {owner : α → State → Verdict}
    (h : ∀ r, KeepsDots (owner r)) (payload : List Byte) : KeepsDots (readPayload read owner payload) := by
  unfold readPayload
  split
  · exact h _
  · exact keepsDots_refuse _

theorem keepsDots_imagePayload (payload : List Byte) : KeepsDots (imagePayload payload) := by
  unfold imagePayload
  split
  · exact keepsDots_reqImage _ _ _ _
  · exact keepsDots_refuse _

theorem keepsDots_advancePayload (payload : List Byte) : KeepsDots (advancePayload payload) := by
  unfold advancePayload
  split
  · exact keepsDots_reqQueueAdvance _ _ _
  · exact keepsDots_refuse _

theorem keepsDots_ownerOf (kind : Byte) (payload : List Byte) : KeepsDots (ownerOf kind payload) := by
  unfold ownerOf
  split
  · exact keepsDots_noPayload keepsDots_reqIdentify _
  · exact keepsDots_noPayload keepsDots_reqGetStatus _
  · exact keepsDots_noPayload keepsDots_reqReadEvents _
  · exact keepsDots_readPayload keepsDots_reqSetAttnMask _
  · exact keepsDots_noPayload keepsDots_reqReset _
  · exact keepsDots_readPayload keepsDots_reqSetMech _
  · exact keepsDots_reqSetPinMap _
  · exact keepsDots_readPayload keepsDots_reqDefineForm _
  · exact keepsDots_onePayload keepsDots_reqReadForm _
  · exact keepsDots_onePayload keepsDots_reqSelectForm _
  · exact keepsDots_noPayload keepsDots_reqSetTof _
  · exact keepsDots_readPayload keepsDots_reqOpenPass _
  · exact keepsDots_imagePayload _
  · exact keepsDots_onePayload keepsDots_reqClosePass _
  · exact keepsDots_advancePayload _
  · exact keepsDots_onePayload keepsDots_reqCancelEntry _
  · exact keepsDots_noPayload keepsDots_reqPause _
  · exact keepsDots_noPayload keepsDots_reqResume _
  · exact keepsDots_noPayload keepsDots_reqAbort _
  · exact keepsDots_noPayload keepsDots_reqClearFault _
  · exact keepsDots_noPayload keepsDots_reqHome _
  · exact keepsDots_refuse _

theorem Keeps.takeRequest {s t : State} (h : Keeps s t) {kind : Byte} {owner : State → Verdict}
    (howner : KeepsDots owner) : Keeps s (Machine.takeRequest kind owner t) := by
  unfold Machine.takeRequest
  split
  · exact h
  split
  · exact h
  split
  · exact h.quiet (Quiet.refl t).latch
  · exact (h.trans (howner t)).quiet (Quiet.refl _).queueReply

theorem keeps_frameComplete (b : Byte) (s : State) : Keeps s (frameComplete b s) := by
  have hclear : Quiet s (clearAssembler s) := (Quiet.refl s).of_work
  unfold frameComplete
  split
  · unfold completeFrame
    dsimp only
    split
    · exact hclear.keeps.takeRequest (keepsDots_ownerOf _ _)
    · exact (Quiet.refl s).rejectFrame.keeps
  · exact .refl s

theorem keeps_byteReceived (b : Byte) (s : State) : Keeps s (byteReceived b s) := by
  have h := Quiet.refl s
  unfold byteReceived
  split
  · exact .refl s
  split
  · split
    · exact h.storeByte.keeps
    · exact .refl s
  · split
    · exact h.lengthFault.keeps
    · exact h.setLink.storeByte.keeps
  · split
    · exact h.storeByte.keeps
    · exact h.storeByte.keeps
  · split
    · exact keeps_frameComplete b s
    · exact h.storeByte.keeps

/-! ## Every command -/

theorem keepsAtPaper_exec (c : Instr) (s : State) : ∃ t, exec c s = .next t ∧ KeepsAtPaper s t := by
  have h := Quiet.refl s
  have req : ∀ {kind : Byte} {owner : State → Verdict}, KeepsDots owner → KeepsAtPaper s (takeRequest kind owner s) :=
    fun howner => ((Keeps.refl s).takeRequest howner).atPaper
  cases c with
  | powerOnReset l => exact ⟨_, rfl, (keeps_powerOnReset l s).atPaper⟩
  | resetNAssert => exact ⟨_, rfl, (keeps_resetNAssert s).atPaper⟩
  | resetNRelease b a => exact ⟨_, rfl, (keeps_resetNRelease b a s).atPaper⟩
  | warmReset b a => exact ⟨_, rfl, (keeps_warmReset b a s).atPaper⟩
  | replySent => exact ⟨_, rfl, (keeps_replySent s).atPaper⟩
  | frameComplete b => exact ⟨_, rfl, (keeps_frameComplete b s).atPaper⟩
  | lengthFault b => exact ⟨_, rfl, h.lengthFault.keeps.atPaper⟩
  | lineFault => exact ⟨_, rfl, h.lineFault.keeps.atPaper⟩
  | byteGapTimerExpiry => exact ⟨_, rfl, h.byteGapTimerExpiry.keeps.atPaper⟩
  | byteReceived b => exact ⟨_, rfl, (keeps_byteReceived b s).atPaper⟩
  | identify => exact ⟨_, rfl, req keepsDots_reqIdentify⟩
  | getStatus => exact ⟨_, rfl, req keepsDots_reqGetStatus⟩
  | readEvents => exact ⟨_, rfl, req keepsDots_reqReadEvents⟩
  | setAttnMask m => exact ⟨_, rfl, req (keepsDots_reqSetAttnMask m)⟩
  | reset => exact ⟨_, rfl, req keepsDots_reqReset⟩
  | setMech r => exact ⟨_, rfl, req (keepsDots_reqSetMech r)⟩
  | setPinMap outs => exact ⟨_, rfl, req (keepsDots_reqSetPinMap outs)⟩
  | defineForm r => exact ⟨_, rfl, req (keepsDots_reqDefineForm r)⟩
  | readForm slot => exact ⟨_, rfl, req (keepsDots_reqReadForm slot)⟩
  | selectForm slot => exact ⟨_, rfl, req (keepsDots_reqSelectForm slot)⟩
  | setTof => exact ⟨_, rfl, req keepsDots_reqSetTof⟩
  | openPass r => exact ⟨_, rfl, req (keepsDots_reqOpenPass r)⟩
  | image tag o k data => exact ⟨_, rfl, req (keepsDots_reqImage tag o k data)⟩
  | closePass tag => exact ⟨_, rfl, req (keepsDots_reqClosePass tag)⟩
  | queueAdvance tag n flags => exact ⟨_, rfl, req (keepsDots_reqQueueAdvance tag n flags)⟩
  | cancelEntry tag => exact ⟨_, rfl, req (keepsDots_reqCancelEntry tag)⟩
  | pause => exact ⟨_, rfl, req keepsDots_reqPause⟩
  | resume => exact ⟨_, rfl, req keepsDots_reqResume⟩
  | abort => exact ⟨_, rfl, req keepsDots_reqAbort⟩
  | clearFault => exact ⟨_, rfl, req keepsDots_reqClearFault⟩
  | home => exact ⟨_, rfl, req keepsDots_reqHome⟩
  | msTick => exact ⟨_, rfl, h.setTime.keeps.atPaper⟩
  | coolingTick => exact ⟨_, rfl, h.coolingTick.keeps.atPaper⟩
  | windowTimerExpiry => exact ⟨_, rfl, h.windowTimerExpiry.keeps.atPaper⟩
  | tearIdleTimerExpiry => exact ⟨_, rfl, h.tearIdleTimerExpiry.keeps.atPaper⟩
  | stallTimerExpiry => exact ⟨_, rfl, h.stallTimerExpiry.keeps.atPaper⟩
  | restDetected => exact ⟨_, rfl, h.restDetected.keeps.atPaper⟩
  | brakeRampEnd => exact ⟨_, rfl, h.brakeRampEnd.keeps.atPaper⟩
  | encoderEdge q => exact ⟨_, rfl, (keeps_encoderEdge q s).atPaper⟩
  | homeSensorChange b => exact ⟨_, rfl, h.homeSensorChange.keeps.atPaper⟩
  | burstSlot => exact ⟨_, rfl, (keeps_burstSlot s).atPaper⟩
  | burstEnd => exact ⟨_, rfl, (keeps_burstEnd s).atPaper⟩
  | driveFault b => exact ⟨_, rfl, (keeps_driveFaultInput b s).atPaper⟩
  | coverOpen => exact ⟨_, rfl, h.coverOpens.keeps.atPaper⟩
  | coverClose => exact ⟨_, rfl, h.setPins.keeps.atPaper⟩
  | paperSnsNoPaper => exact ⟨_, rfl, h.paperGone.keeps.atPaper⟩
  | paperSnsPaper => exact ⟨_, rfl, h.paperBack.keeps.atPaper⟩
  | feedUnit => exact ⟨_, rfl, (keeps_feedUnit s).atPaper⟩
  | paperMotionComplete => exact ⟨_, rfl, (keeps_paperMotionComplete s).atPaper⟩
  | takeUp => exact ⟨_, rfl, (keeps_takeUp s).atPaper⟩
  | prep => exact ⟨_, rfl, h.prep.keeps.atPaper⟩
  | masking => exact ⟨_, rfl, (keeps_masking s).atPaper⟩
  | heatCheck => exact ⟨_, rfl, h.heatCheck.keeps.atPaper⟩
  | position => exact ⟨_, rfl, (keeps_position s).atPaper⟩
  | sweepOrder => exact ⟨_, rfl, keeps_sweepOrder s⟩
  | resumeSuspended => exact ⟨_, rfl, h.resumeSuspended.keeps.atPaper⟩
  | advanceOrder => exact ⟨_, rfl, keeps_advanceOrder s⟩
  | advanceEntryOrder => exact ⟨_, rfl, keeps_advanceEntryOrder s⟩
  | lookAheadPlan => exact ⟨_, rfl, (keeps_lookAheadPlan s).atPaper⟩
  | entryAborted => exact ⟨_, rfl, h.entryAborted.keeps.atPaper⟩

/-- A step keeps the queue, the records, the pool and, with a sound paper record, the account of the dots. -/
theorem keepsAtPaper_step {s t : State} (h : step s = .next t) : KeepsAtPaper s t := by
  unfold step at h
  split at h
  · obtain rfl := Host.Outcome.next.inj h
    exact (Keeps.refl s).atPaper
  · rename_i c rest _
    obtain ⟨u, hu, hkeeps⟩ := keepsAtPaper_exec c (s.setPending rest)
    obtain rfl := Host.Outcome.next.inj (hu.symm.trans h)
    exact ⟨⟨hkeeps.queue, hkeeps.head, hkeeps.records, hkeeps.pool⟩, fun hq hp hpaper a =>
      hkeeps.dots hq hp hpaper (((Quiet.refl s).of_work (u := s.setPending rest) rfl).account a)⟩

/-- Settles O56: every command keeps the queue in order and the completion list within its bound. -/
theorem stepKeepsQueueSound : Obligations.StepKeepsQueueSound := by
  intro s t hq hh hr hstep
  have h := keepsAtPaper_step hstep
  exact ⟨h.queue hq, h.head hh, h.records hr⟩

end Sys2Proof.Machine
end

section
/-! The account of the dots added up. -/

namespace Sys2Proof.Machine

/-! ## The dots of a column and of a pass -/

/-- The dots of a column are suppressed, left, fired or lost, each one of these. -/
theorem Column.rowCount_dots {sup : Rows} {c : Column} (h : c.marksSound sup = true) :
    rowCount (c.dots &&& sup) + rowCount (c.left sup) + rowCount c.fired + rowCount c.lost = rowCount c.dots := by
  have hmark := (Column.marksSound_iff sup c).1 h
  have hleft := c.left_getLsbD sup
  have hsplit : c.dots = (c.dots &&& sup ||| c.left sup ||| c.fired) ||| c.lost := by
    refine BitVec.eq_of_getLsbD_eq fun i hi => Bool.eq_iff_iff.2 ?_
    obtain ⟨hapart, hdots⟩ := hmark i
    simp only [BitVec.getLsbD_or, BitVec.getLsbD_and, Bool.or_eq_true, Bool.and_eq_true, hleft]
    constructor
    · intro hd
      cases hs : sup.getLsbD i <;> cases hf : c.fired.getLsbD i <;> cases hl : c.lost.getLsbD i <;> simp_all
    · rintro (((⟨hd, -⟩ | ⟨hd, -⟩) | hf) | hl)
      · exact hd
      · exact hd
      · exact (hdots (.inl hf)).1
      · exact (hdots (.inr hl)).1
  have hsup : rowCount (c.dots &&& sup ||| c.left sup) = rowCount (c.dots &&& sup) + rowCount (c.left sup) :=
    rowCount_or fun i hi => Bool.eq_false_iff.2 fun hl => by
      rw [BitVec.getLsbD_and, Bool.and_eq_true] at hi
      exact Bool.false_ne_true (((hleft i).1 hl).2.1.symm.trans hi.2)
  have hfired : rowCount (c.dots &&& sup ||| c.left sup ||| c.fired)
      = rowCount (c.dots &&& sup ||| c.left sup) + rowCount c.fired :=
    rowCount_or fun i hi => Bool.eq_false_iff.2 fun hf => by
      simp only [BitVec.getLsbD_or, BitVec.getLsbD_and, Bool.or_eq_true, Bool.and_eq_true, hleft] at hi
      rcases hi with ⟨-, hs⟩ | ⟨-, -, hf', -⟩
      · exact Bool.false_ne_true (((hmark i).2 (.inl hf)).2.symm.trans hs)
      · exact Bool.false_ne_true (hf'.symm.trans hf)
  have hlost : rowCount ((c.dots &&& sup ||| c.left sup ||| c.fired) ||| c.lost)
      = rowCount (c.dots &&& sup ||| c.left sup ||| c.fired) + rowCount c.lost :=
    rowCount_or fun i hi => Bool.eq_false_iff.2 fun hl => by
      simp only [BitVec.getLsbD_or, BitVec.getLsbD_and, Bool.or_eq_true, Bool.and_eq_true, hleft] at hi
      rcases hi with (⟨-, hs⟩ | ⟨-, -, -, hl'⟩) | hf
      · exact Bool.false_ne_true (((hmark i).2 (.inr hl)).2.symm.trans hs)
      · exact Bool.false_ne_true (hl'.symm.trans hl)
      · exact Bool.false_ne_true (((hmark i).1 hf).symm.trans hl)
  rw [← hsup, ← hfired, ← hlost, ← hsplit]

/-- The four counts of a masked pass add up to its dots. -/
theorem sumRows_dots {pool : Pool} {p : Pass} {sup : Rows}
    (h : ∀ c, c < p.span → (passColumn pool p c).marksSound sup = true) :
    sumRows pool p (fun c => c.dots &&& sup) + sumRows pool p (Column.left sup) + sumRows pool p Column.fired
      + sumRows pool p Column.lost = sumRows pool p Column.dots := by
  simp only [sumRows, ← List.sum_map_add]
  refine congrArg List.sum (List.map_congr_left fun c hc => ?_)
  exact Column.rowCount_dots (h c (List.mem_range.1 hc))

/-- A counted column bears at most one mark on a dot, and marks on dots alone. -/
theorem passCounted_marks {pool : Pool} {p : Pass} (h : passCounted pool p = true) {c : Nat} (hc : c < p.span) :
    (passColumn pool p c).fired &&& (passColumn pool p c).lost = 0#24
      ∧ ((passColumn pool p c).fired ||| (passColumn pool p c).lost) &&& ~~~(passColumn pool p c).dots = 0#24 := by
  cases hsup : p.suppressed with
  | none =>
    obtain ⟨hf, hl⟩ := ((passCounted_unmasked hsup).1 h).1 c hc
    simp [hf, hl]
  | some sup =>
    have hmark := (Column.marksSound_iff sup _).1 (((passCounted_masked hsup).1 h).1 c hc)
    generalize passColumn pool p c = col at hmark
    refine ⟨(rows_eq_zero_iff _).2 fun i => ?_, (rows_eq_zero_iff _).2 fun i => ?_⟩
    · have := (hmark i).1
      rw [BitVec.getLsbD_and]
      cases hf : col.fired.getLsbD i <;> simp_all
    · have hdots := (hmark i).2
      by_cases hi : i < 24
      · simp only [BitVec.getLsbD_and, BitVec.getLsbD_or, BitVec.getLsbD_not, hi, decide_true, Bool.true_and]
        cases hd : col.dots.getLsbD i
        · cases hf : col.fired.getLsbD i <;> cases hl : col.lost.getLsbD i <;> simp_all
        · simp
      · exact BitVec.getLsbD_of_ge _ i (Nat.le_of_not_lt hi)

/-- Settles O57: every command keeps the pool and the account of the dots; the account's counters add up. -/
theorem stepKeepsPoolConserved : Obligations.StepKeepsPoolConserved := by
  refine ⟨fun s t hq hp hstep => (keepsAtPaper_step hstep).pool hq hp, fun s t hq hp hpaper hdots hstep =>
    (dotsSound_iff t).2 ((keepsAtPaper_step hstep).dots hq hp hpaper ((dotsSound_iff s).1 hdots)), ?_⟩
  intro s e p count hdots he hpass hcount
  obtain ⟨hcounted, -⟩ := ((dotsSound_iff s).1 hdots).counted e he p hpass
  have hsum : ∀ f, count f = sumRows s.pool p f := hcount
  simp only [hsum]
  refine ⟨fun c hc => passCounted_marks hcounted hc, ?_⟩
  cases hsup : p.suppressed with
  | none =>
    obtain ⟨hblank, hnone, hfired, hlost⟩ := (passCounted_unmasked hsup).1 hcounted
    have hzero : p.dotsFired = 0 ∧ p.dotsLost = 0 :=
      ⟨hfired.trans (sumRows_zero fun c hc => (hblank c hc).1), hlost.trans (sumRows_zero fun c hc => (hblank c hc).2)⟩
    exact ⟨hfired, hlost, fun _ => ⟨hzero.1, hnone, hzero.2⟩, nofun⟩
  | some sup =>
    obtain ⟨hmarks, hsuppressed, hfired, hlost⟩ := (passCounted_masked hsup).1 hcounted
    refine ⟨hfired, hlost, nofun, fun sup' hsup' => ?_⟩
    obtain rfl := Option.some.inj hsup'
    have hadd := sumRows_dots hmarks
    rw [← hsuppressed, ← hfired, ← hlost] at hadd
    exact ⟨hsuppressed, hadd⟩

end Sys2Proof.Machine
end

section
/-! OPEN_PASS, CLOSE_PASS, CANCEL_ENTRY and QUEUE_ADVANCE; the window and the tear timer's expiry. -/

namespace Sys2Proof.Machine

/-! ## Timers that are due -/

/-- A paper that is not at rest in IDLE keeps the tear timer stopped. -/
theorem tearReady_of_paper {s : State} (h : s.paper.state ≠ .idle) : tearReady s = false := by simp [tearReady, h]

/-- Tear-off has a tractor profile. -/
theorem path_of_tearReady {s : State} (h : tearReady s = true) : (activeProfile s).path = .tractor := by
  cases hp : (activeProfile s).path with
  | tractor => rfl
  | friction => simp [tearReady, tearIdleOf, hp] at h

theorem tearDistance_of_sound {s : State} (hform : formSound s = true) {d : Nat}
    (hd : (d : Int) = (((activeProfile s).length : Int) - s.paper.y) % (activeProfile s).length
      + ((activeProfile s).tear.map Tear.offset).getD 0) : tearDistance (activeProfile s) s.paper.y = d := by
  have hy : s.paper.y < (activeProfile s).length := by
    simp only [formSound, Bool.and_eq_true, decide_eq_true_eq] at hform
    exact hform.2
  have hpos := Int.emod_nonneg (((activeProfile s).length : Int) - s.paper.y)
    (b := (activeProfile s).length) (by omega)
  unfold tearDistance
  omega

theorem tearIdleTimerExpiry_of_due {s : State} (hdue : s.time.tearIdle = some 0) (hready : tearReady s = true) {d : Nat}
    (hd : tearDistance (activeProfile s) s.paper.y = d) : tearIdleTimerExpiry s =
      if d = 0 then settleTear (latch .tearParked (parkAt 0 (stopTear s)))
      else settleTear (takeOrder .tear d (stopTear s)) := by
  subst hd
  exact if_pos ⟨hdue, hready⟩

/-- At the end of the paper a tear advance parks where it stands (R114). -/
theorem paperEndStop_tear {m : Motion} (h : m.purpose = .tear) (s : State) : paperEndStop m s
    = latch .tearParked (parkAt m.moved (setPause true (latch .paperOutStop s))) := by
  simp only [paperEndStop, h]

/-- Settles O31: the expiries act when they are due, and settling the tear timer leaves it stopped. -/
theorem windowAndTearExpiry : Obligations.WindowAndTearExpiry := by
  refine ⟨fun s hdue hopen => ?_, fun s d hdue hready hform hd => ?_⟩
  · have hany : s.queue.any (fun e => e.state == .opened) = true := by simpa using hopen
    exact congrArg Host.Outcome.next (if_pos ⟨hdue, hany⟩)
  · have hexpiry := tearIdleTimerExpiry_of_due hdue hready (tearDistance_of_sound hform hd)
    refine ⟨fun hzero => congrArg Host.Outcome.next ?_, fun hpos hpe => congrArg Host.Outcome.next ?_,
      fun hpos hpe => congrArg Host.Outcome.next ?_⟩
    · rw [hexpiry, if_pos hzero, settleTear_of_not (tearReady_of_paper (by simp [parkAt]))]
      rfl
    · have horder := takeOrder_forward (p := .tear) (d := d) (s := stopTear s) (by omega) hpe
      have hpath : (activeProfile (stopTear s)).path = .tractor := path_of_tearReady hready
      rw [hexpiry, if_neg (by omega), horder, settleTear_of_not (tearReady_of_paper (by simp)), hpath]
      rfl
    · have horder := takeOrder_at_end (p := .tear) (d := d) (s := stopTear s) (by omega) hpe
      rw [paperEndStop_tear rfl] at horder
      have hlatched : s.events.latched ||| 0x180#12
          = s.events.latched ||| BitVec.twoPow 12 7 ||| BitVec.twoPow 12 8 := by rw [BitVec.or_assoc]; rfl
      rw [hexpiry, if_neg (by omega), horder, settleTear_of_not (tearReady_of_pause rfl), hlatched]
      simp only [latch_eq, parkAt, setPause, stopTear, State.setTime, State.setEvents, State.setPaper, State.setRunner,
        Event.bit]

/-! ## QUEUE_ADVANCE -/

theorem advance_limited (n : Int) : Advance.distance (limitDistance n)
    = if n < -360 then .distance (-360) else if 1440 < n then .distance 1440 else .distance n := by
  unfold limitDistance
  split
  · congr; omega
  · split
    · congr; omega
    · congr; omega

theorem limitDistance_eq_iff (n : Int) : limitDistance n = n ↔ -360 ≤ n ∧ n ≤ 1440 := by
  unfold limitDistance; omega

theorem findEntry_none_isSome {q : List Entry} {tag : Byte} (h : ∀ e ∈ q, e.tag ≠ tag) :
    ¬(findEntry q tag).isSome = true := by simp [findEntry_eq_none.2 h]

section
variable {tag : Byte} {n : Half} {flags : Byte} {s : State}

theorem reqQueueAdvance_of_dup (h : ∃ e ∈ s.queue, e.tag = tag) : reqQueueAdvance tag n flags s = refuse .dupTag s :=
  if_pos (findEntry_isSome.2 h)

theorem reqQueueAdvance_of_full (h : ∀ e ∈ s.queue, e.tag ≠ tag) (hfull : 8 ≤ s.queue.length) :
    reqQueueAdvance tag n flags s = refuse .noSpace s :=
  (if_neg (findEntry_none_isSome h)).trans (if_pos hfull)

theorem reqQueueAdvance_of_room (h : ∀ e ∈ s.queue, e.tag ≠ tag) (hroom : s.queue.length < 8) :
    reqQueueAdvance tag n flags s =
      { state := settleTear (s.setQueue (s.queue ++ [{ tag := tag, state := .ready
                                                       advance := if flags.getLsbD 0 then .formFeed
                                                         else .distance (limitDistance n.toInt)
                                                       remaining := none, pass := none }]))
        code := okOr (!flags.getLsbD 0 && limitDistance n.toInt != n.toInt), data := [] } :=
  (if_neg (findEntry_none_isSome h)).trans (if_neg (Nat.not_le.2 hroom))

end

theorem okOr_byte (clamped : Bool) : (okOr clamped).byte = if clamped then 0x01#8 else 0x00#8 := by
  cases clamped <;> rfl

theorem okOr_byte_cases (clamped : Bool) : (okOr clamped).byte = 0x00#8 ∨ (okOr clamped).byte = 0x01#8 := by
  cases clamped
  · exact .inl rfl
  · exact .inr rfl

/-- Settles O24: an entry that joins the queue keeps the tear timer stopped. -/
theorem queueAdvanceAppends : Obligations.QueueAdvanceAppends := by
  intro tag n flags s hopen
  have hexec : exec (.queueAdvance tag n flags) s = .next (replied 0x23#8 (reqQueueAdvance tag n flags s).code.byte
    (reqQueueAdvance tag n flags s).data (reqQueueAdvance tag n flags s).state) :=
    congrArg Host.Outcome.next (takeRequest_of_open hopen)
  rw [hexec]
  refine ⟨fun hdup => ?_, fun hfree hfull => ?_, fun hfree hroom => ?_⟩
  · rw [reqQueueAdvance_of_dup hdup]; rfl
  · rw [reqQueueAdvance_of_full hfree hfull]; rfl
  · have hcode : (okOr (!flags.getLsbD 0 && limitDistance n.toInt != n.toInt)).byte
        = if flags.getLsbD 0 = true ∨ (-360 ≤ n.toInt ∧ n.toInt ≤ 1440) then 0x00#8 else 0x01#8 := by
      simp only [← limitDistance_eq_iff, okOr_byte]
      generalize flags.getLsbD 0 = ff
      by_cases hlim : limitDistance n.toInt = n.toInt <;> cases ff <;> simp [hlim]
    rw [reqQueueAdvance_of_room hfree hroom, settleTear_of_not (tearReady_of_queue (by simp)), hcode, advance_limited]
    rfl

/-! ## CLOSE_PASS and CANCEL_ENTRY -/

section
variable {tag : Byte} {s : State} {e : Entry}

theorem reqClosePass_of_none (h : findEntry s.queue tag = none) : reqClosePass tag s = refuse .noEntry s := by
  simp only [reqClosePass, h]

theorem reqClosePass_of_closed (h : findEntry s.queue tag = some e) (he : e.state ≠ .opened) :
    reqClosePass tag s = refuse .closed s := by
  simp only [reqClosePass, h, if_neg he]

theorem reqClosePass_of_opened (h : findEntry s.queue tag = some e) (he : e.state = .opened) :
    reqClosePass tag s = accept (stopWindow (s.setQueue (updateEntry s.queue tag closeEntry))) := by
  simp only [reqClosePass, h, if_pos he]

theorem reqCancelEntry_of_none (h : findEntry s.queue tag = none) : reqCancelEntry tag s = refuse .noEntry s := by
  simp only [reqCancelEntry, h]

/-- An entry taken up, or READY with a plan made for it, stays (R36). -/
theorem reqCancelEntry_of_started (h : findEntry s.queue tag = some e) (hopen : e.state ≠ .opened)
    (he : e.state ≠ .ready ∨ ∃ p, s.runner.lookAhead = some p ∧ p.tag = tag) :
    reqCancelEntry tag s = refuse .started s := by
  simp only [reqCancelEntry, h]
  cases hs : e.state with
  | opened => exact absurd hs hopen
  | ready =>
    obtain ⟨p, hp, htag⟩ := he.resolve_left (absurd hs)
    simp [hp, htag]
  | _ => rfl

theorem reqCancelEntry_of_opened (h : findEntry s.queue tag = some e) (he : e.state = .opened) :
    reqCancelEntry tag s = accept (settleTear (removeEntry e (stopWindow s))) := by
  simp only [reqCancelEntry, h, he]

theorem reqCancelEntry_of_ready (h : findEntry s.queue tag = some e) (he : e.state = .ready)
    (hplan : ∀ p, s.runner.lookAhead = some p → p.tag ≠ tag) :
    reqCancelEntry tag s = accept (settleTear (removeEntry e s)) := by
  have hnone : s.runner.lookAhead.any (fun p => p.tag == tag) = false := by simpa [Option.any_eq_false] using hplan
  simp only [reqCancelEntry, h, he, hnone]
  rfl

end

/-- Settles O23: the request is judged by the state of the entry that holds the tag. -/
theorem closePassAndCancelEntry : Obligations.ClosePassAndCancelEntry := by
  refine ⟨fun tag s hopen => ?_, fun tag s hopen => ?_⟩
  · have hexec : exec (.closePass tag) s = .next (replied 0x22#8 (reqClosePass tag s).code.byte
      (reqClosePass tag s).data (reqClosePass tag s).state) := congrArg Host.Outcome.next (takeRequest_of_open hopen)
    rw [hexec]
    refine ⟨fun hnone => ?_, fun e hfind he => ?_, fun e hfind he => ?_⟩
    · rw [reqClosePass_of_none (findEntry_eq_none.2 hnone)]; rfl
    · rw [reqClosePass_of_closed hfind he]; rfl
    · rw [reqClosePass_of_opened hfind he]; rfl
  · have hexec : exec (.cancelEntry tag) s = .next (replied 0x24#8 (reqCancelEntry tag s).code.byte
      (reqCancelEntry tag s).data (reqCancelEntry tag s).state) :=
      congrArg Host.Outcome.next (takeRequest_of_open hopen)
    rw [hexec]
    refine ⟨fun hnone => ?_, fun e hfind => ⟨fun hne hstarted => ?_, fun he => ?_⟩⟩
    · rw [reqCancelEntry_of_none (findEntry_eq_none.2 hnone)]; rfl
    · rw [reqCancelEntry_of_started hfind hne hstarted]; rfl
    · obtain ⟨-, rfl⟩ := findEntry_tag hfind
      rcases he with he | ⟨he, hplan⟩
      · rw [reqCancelEntry_of_opened hfind he, if_pos he]; rfl
      · rw [reqCancelEntry_of_ready hfind he hplan, if_neg (by simp [he])]; rfl

/-! ## OPEN_PASS -/

theorem codes_end {b : Byte} (h : 3 ≤ b.toNat) : densityOf b = none ∧ preferenceOf b = none := by
  unfold densityOf preferenceOf
  constructor
  · split
    case h_4 => rfl
    all_goals omega
  · split
    case h_4 => rfl
    all_goals omega

section
variable {r : PassRequest} {s : State} {d : Density} {pref : Preference}

/-- A code that names nothing, or columns outside the line, is a RANGE fault (R25). -/
theorem reqOpenPass_of_range (h : densityOf r.density = none ∨ preferenceOf r.pref = none ∨ r.span = 0#16
    ∨ ∃ d, densityOf r.density = some d ∧ d.limit ≤ r.start.toNat) : reqOpenPass r s = refuse .range s := by
  cases hd : densityOf r.density with
  | none => simp only [reqOpenPass, hd]
  | some d =>
    cases hp : preferenceOf r.pref with
    | none => simp only [reqOpenPass, hd, hp]
    | some pref =>
      have hrange : d.limit ≤ r.start.toNat ∨ r.span.toNat = 0 := by
        rcases h with h | h | h | ⟨d', hd', hlimit⟩
        · exact nomatch hd.symm.trans h
        · exact nomatch hp.symm.trans h
        · exact .inr (by rw [h]; rfl)
        · obtain rfl := Option.some.inj (hd.symm.trans hd')
          exact .inl hlimit
      simp only [reqOpenPass, hd, hp, if_pos hrange]

variable (hd : densityOf r.density = some d) (hp : preferenceOf r.pref = some pref) (hstart : r.start.toNat < d.limit)
  (hspan : 1 ≤ r.span.toNat)
include hd hp hstart hspan

theorem reqOpenPass_of_dup (h : ∃ e ∈ s.queue, e.tag = r.tag) : reqOpenPass r s = refuse .dupTag s := by
  have hrange : ¬(d.limit ≤ r.start.toNat ∨ r.span.toNat = 0) := by omega
  simp only [reqOpenPass, hd, hp, if_neg hrange, if_pos (findEntry_isSome.2 h)]

theorem reqOpenPass_of_full (h : ∀ e ∈ s.queue, e.tag ≠ r.tag) (hfull : 8 ≤ s.queue.length) :
    reqOpenPass r s = refuse .noSpace s := by
  have hrange : ¬(d.limit ≤ r.start.toNat ∨ r.span.toNat = 0) := by omega
  have hfull : Config.queueCapacity ≤ s.queue.length := hfull
  simp only [reqOpenPass, hd, hp, if_neg hrange, if_neg (findEntry_none_isSome h), if_pos hfull]

theorem reqOpenPass_of_room (h : ∀ e ∈ s.queue, e.tag ≠ r.tag) (hroom : s.queue.length < 8) {span : Nat}
    (hheld : span = min r.span.toNat (d.limit - r.start.toNat)) {held : Preference}
    (hpref : held = if pref = .rev ∧ (activeProfile s).bidir = false then .fwd else pref) :
    reqOpenPass r s =
      { state := settleTear (startWindow (s.setQueue (closeOpen s.queue ++ [newPass d held span r s])))
        code := okOr (span != r.span.toNat || held != pref
          || (!r.flags.getLsbD 0 && decide (1440 < r.distance.toNat)))
        data := bytesLE 2 span ++ [preferenceCode held] } := by
  have hrange : ¬(d.limit ≤ r.start.toNat ∨ r.span.toNat = 0) := by omega
  have hroom : ¬Config.queueCapacity ≤ s.queue.length := Nat.not_le.2 hroom
  simp only [reqOpenPass, hd, hp, if_neg hrange, if_neg (findEntry_none_isSome h), if_neg hroom, hheld, hpref]

end

/-- Settles O21: the checks in their order, then the acts of R27. -/
theorem openPassAppends : Obligations.OpenPassAppends := by
  refine ⟨⟨rfl, rfl, rfl, rfl, rfl, rfl, rfl, rfl, rfl, fun _ => codes_end, rfl, rfl, rfl⟩, fun r s hopen => ?_⟩
  have hexec : exec (.openPass r) s = .next (replied 0x20#8 (reqOpenPass r s).code.byte (reqOpenPass r s).data
    (reqOpenPass r s).state) := congrArg Host.Outcome.next (takeRequest_of_open hopen)
  rw [hexec]
  refine ⟨fun hrange => ?_, fun d pref hd hp hstart hspan => ⟨fun hdup => ?_, fun hfree hfull => ?_,
    fun hfree hroom => ?_⟩⟩
  · rw [reqOpenPass_of_range hrange]; rfl
  · rw [reqOpenPass_of_dup hd hp hstart hspan hdup]; rfl
  · rw [reqOpenPass_of_full hd hp hstart hspan hfree hfull]; rfl
  · rw [reqOpenPass_of_room hd hp hstart hspan hfree hroom rfl rfl,
      settleTear_of_not (tearReady_of_queue (by simp [startWindow]))]
    refine ⟨_, _, _, _, rfl, rfl, rfl, ?_, ?_, rfl⟩
    · exact okOr_byte_cases _
    · generalize min r.span.toNat (d.limit - r.start.toNat) = span
      generalize (if pref = .rev ∧ (activeProfile s).bidir = false then .fwd else pref : Preference) = held
      generalize r.flags.getLsbD 0 = ff
      rw [okOr_byte]
      cases ff <;> simp [and_assoc]

end Sys2Proof.Machine
end

section
/-! IMAGE: its checks and what a carried-out one gives. -/

namespace Sys2Proof.Machine

section
variable {tag : Byte} {o : Half} {k : Byte} {data : List Byte} {s : State} {e : Entry} {p : Pass}

theorem reqImage_of_badLength (h : data.length ≠ 3 * k.toNat) : reqImage tag o k data s = refuse .badLength s :=
  if_pos h

variable (hlen : data.length = 3 * k.toNat)
include hlen

theorem reqImage_of_none (h : findEntry s.queue tag = none) : reqImage tag o k data s = refuse .noEntry s := by
  simp only [reqImage, hlen, ne_eq, not_true_eq_false, if_false, h]

variable (hfind : findEntry s.queue tag = some e)
include hfind

theorem reqImage_of_closed (he : e.state ≠ .opened) : reqImage tag o k data s = refuse .closed s := by
  simp only [reqImage, hlen, ne_eq, not_true_eq_false, if_false, hfind, if_pos he]

variable (he : e.state = .opened) (hp : e.pass = some p)
include he hp

theorem reqImage_of_range (h : k.toNat = 0 ∨ 64 < k.toNat ∨ p.span ≤ o.toNat) :
    reqImage tag o k data s = refuse .range s := by
  simp only [reqImage, hlen, ne_eq, not_true_eq_false, if_false, hfind, he, hp, if_pos h]

variable (hk : 1 ≤ k.toNat) (hk' : k.toNat ≤ 64) (ho : o.toNat < p.span) {kept : Nat}
  (hkept : kept = min k.toNat (p.span - o.toNat))
include hk hk' ho hkept

theorem reqImage_of_full (h : s.pool.freeCount < (absentSlots p o.toNat kept).length) :
    reqImage tag o k data s = refuse .noSpace s := by
  have hrange : ¬(k.toNat = 0 ∨ 64 < k.toNat ∨ p.span ≤ o.toNat) := by omega
  subst hkept
  simp only [reqImage, hlen, ne_eq, not_true_eq_false, if_false, hfind, he, hp, if_neg hrange]
  exact if_pos h

theorem reqImage_of_room (h : (absentSlots p o.toNat kept).length ≤ s.pool.freeCount) :
    reqImage tag o k data s =
      { state := carryImage tag p o.toNat ((columnsOf data).take kept) (absentSlots p o.toNat kept) s
        code := okOr (kept != k.toNat)
        data := bytesLE 1 kept ++ bytesLE 1 (carryImage tag p o.toNat ((columnsOf data).take kept)
          (absentSlots p o.toNat kept) s).pool.freeCount } := by
  have hrange : ¬(k.toNat = 0 ∨ 64 < k.toNat ∨ p.span ≤ o.toNat) := by omega
  subst hkept
  simp only [reqImage, hlen, ne_eq, not_true_eq_false, if_false, hfind, he, hp, if_neg hrange]
  exact if_neg (Nat.not_lt.2 h)

end

/-- Among the 51 slots those between the first and the last column's are the touched ones. -/
theorem absentSlots_length {p : Pass} {o kept : Nat} (hk : 1 ≤ kept) (hk' : kept ≤ 64) (hfit : o + kept ≤ p.span)
    (hspan : p.span ≤ 3264) : ((List.range Config.blockSlots).filter fun j =>
      decide (o / 64 ≤ j) && decide (j ≤ (o + kept - 1) / 64) && (p.slots.getD j none).isNone).length
        = (absentSlots p o kept).length := by
  refine List.Perm.length_eq ((List.perm_ext_iff_of_nodup (List.nodup_range.filter _)
    ((touchedSlots_nodup o kept).filter _)).2 fun j => ?_)
  simp only [List.mem_filter, List.mem_range, mem_touchedSlots hk hk', Bool.and_eq_true, decide_eq_true_eq,
    Config.blockSlots]
  constructor
  · rintro ⟨-, hj, hnone⟩
    exact ⟨hj, hnone⟩
  · rintro ⟨hj, hnone⟩
    exact ⟨by omega, hj, hnone⟩

/-- Row r of a column is in byte r/8, at bit 7 − (r mod 8). -/
theorem columnDots_getLsbD (b0 b1 b2 : Byte) {r : Nat} (hr : r < 24) (rest : List Byte) :
    (columnDots b0 b1 b2).getLsbD r = ((b0 :: b1 :: b2 :: rest).getD (r / 8) 0#8).getLsbD (7 - r % 8) := by
  rw [columnDots, rowsWhere_getLsbD, decide_eq_true hr, Bool.true_and]
  rcases (by omega : r / 8 = 0 ∨ r / 8 = 1 ∨ r / 8 = 2) with h | h | h
  · rw [if_pos (by omega), h]; rfl
  · rw [if_neg (by omega), if_pos (by omega), h]; rfl
  · rw [if_neg (by omega), if_neg (by omega), h]; rfl

theorem columnsOf_getLsbD : ∀ (i : Nat) {data : List Byte} {r : Nat}, r < 24 → 3 * i + 2 < data.length →
    ((columnsOf data).getD i 0#24).getLsbD r = (data.getD (3 * i + r / 8) 0#8).getLsbD (7 - r % 8)
  | 0, b0 :: b1 :: b2 :: rest, r, hr, _ => by
    rw [Nat.mul_zero, Nat.zero_add]
    exact columnDots_getLsbD b0 b1 b2 hr rest
  | i + 1, b0 :: b1 :: b2 :: rest, r, hr, h => by
    have hrec := columnsOf_getLsbD i (data := rest) hr (by simp only [List.length_cons] at h; omega)
    have hindex : 3 * (i + 1) + r / 8 = 3 * i + r / 8 + 1 + 1 + 1 := by omega
    rw [hindex, List.getD_cons_succ, List.getD_cons_succ, List.getD_cons_succ]
    exact hrec
  | _, [], _, _, h => by simp at h
  | _, [_], _, _, h => by simp at h
  | _, [_, _], _, _, h => by simp at h

/-- Settles O22: the checks in their order, and the merge as `imaged` gives it. -/
theorem imageJudgedAndMerged : Obligations.ImageJudgedAndMerged := by
  have hexec : ∀ (tag : Byte) (o : Half) (k : Byte) (data : List Byte) (s : State), linkOpen s = true →
      exec (.image tag o k data) s = .next (replied 0x21#8 (reqImage tag o k data s).code.byte
        (reqImage tag o k data s).data (reqImage tag o k data s).state) :=
    fun _ _ _ _ _ hopen => congrArg Host.Outcome.next (takeRequest_of_open hopen)
  refine ⟨fun tag o k data s hopen => ?_, fun tag o k data s e p hopen hq hpool hfind he hp hlen hk hk' ho hroom => ?_,
    fun data i r hr h => columnsOf_getLsbD i hr h⟩
  · rw [hexec tag o k data s hopen]
    refine ⟨fun hlen => ?_, fun hlen => ⟨fun hnone => ?_, fun e hfind => ⟨fun he => ?_, fun p he hp =>
      ⟨fun hrange => ?_, fun hk hk' ho hfull hspan => ?_⟩⟩⟩⟩
    · rw [reqImage_of_badLength hlen]; rfl
    · rw [reqImage_of_none hlen hnone]; rfl
    · rw [reqImage_of_closed hlen hfind he]; rfl
    · rw [reqImage_of_range hlen hfind he hp hrange]; rfl
    · rw [absentSlots_length (by omega) (by omega) (by omega) hspan] at hfull
      rw [reqImage_of_full hlen hfind he hp hk hk' ho rfl hfull]; rfl
  · obtain ⟨kept, hkept⟩ : ∃ kept, kept = min k.toNat (p.span - o.toNat) := ⟨_, rfl⟩
    rw [← hkept] at hroom
    have hdots : ((columnsOf data).take kept).length = kept := by
      rw [List.length_take, columnsOf_length k.toNat data hlen]; omega
    have him := imaged (s := s) (p := p) (o := o.toNat) (dots := (columnsOf data).take kept)
      ((poolSound_iff s).1 hpool).1 (passSound_of_find hpool hfind hp) (shared_of_find hq hpool hfind hp) (by omega)
      (by omega) (by omega)
      (by rw [hdots]; exact hroom)
    have hcount := him.count
    have himage := him.image
    rw [hdots] at him hcount himage
    have hcode : (okOr (kept != k.toNat)).byte = if kept = k.toNat then 0x00#8 else 0x01#8 := by
      rw [okOr_byte]
      by_cases h : kept = k.toNat <;> simp [h]
    refine ⟨carryImage tag p o.toNat ((columnsOf data).take kept) (absentSlots p o.toNat kept) s,
      imagedPass s p o.toNat kept, kept, _, hkept, rfl, ?_, rfl, rfl, him.kept, hcount, fun c => (himage c).trans ?_,
      fun x hx hne q hxq c => ?_, rfl⟩
    · rw [hexec tag o k data s hopen, reqImage_of_room hlen hfind he hp hk hk' ho hkept hroom, hcode]
      rfl
    · split
      · have htake : ((columnsOf data).take kept).getD (c - o.toNat) 0#24
            = (columnsOf data).getD (c - o.toNat) 0#24 := by
          rw [List.getD_eq_getElem?_getD, List.getElem?_take_of_lt (by omega), ← List.getD_eq_getElem?_getD]
        rw [htake]; rfl
      · rfl
    · refine passColumn_agree (fun i hi => him.others i ?_) c
      refine mem_heldBlocks.2 ⟨x, List.mem_filter.2 ⟨hx, by simpa using hne⟩, ?_⟩
      rwa [Entry.blocks_of_pass hxq]

end Sys2Proof.Machine
end

section
/-! The table of R45: what each carriage state says of the position, the drive and the motion in hand, and that every
command keeps it. -/

namespace Sys2Proof.Machine

/-! ## The rows of the table -/

/-- The rows of the table of R45 (spec/03), one constructor each; HOMING has a row for its stages without a position and
one for those with. A position lies within the travel (R44). -/
inductive Posture : Carriage → Prop
  | unhomed {a b : Channel} {r : Option ResumeDue} : Posture
      { state := .unhomed, pos := none, drive := .off, homing := none, target := none, plan := none
        chanA := a, chanB := b, brake := none, resumeDue := r }
  | idle {p : Nat} {a b : Channel} {r : Option ResumeDue} (hp : p ≤ 21599) : Posture
      { state := .idle, pos := some p, drive := .off, homing := none, target := none, plan := none
        chanA := a, chanB := b, brake := none, resumeDue := r }
  | unplaced {d : Drive} {h : Homing} {a b : Channel} {r : Option ResumeDue} (hd : d ≠ .off)
      (hstop : h.stage ≠ .seekStop) (hpark : h.stage ≠ .park) : Posture
      { state := .homing, pos := none, drive := d, homing := some h, target := none, plan := none
        chanA := a, chanB := b, brake := none, resumeDue := r }
  | placed {p : Nat} {d : Drive} {h : Homing} {a b : Channel} {r : Option ResumeDue} (hp : p ≤ 21599) (hd : d ≠ .off)
      (hstage : h.stage = .seekStop ∨ h.stage = .park) : Posture
      { state := .homing, pos := some p, drive := d, homing := some h, target := none, plan := none
        chanA := a, chanB := b, brake := none, resumeDue := r }
  | approach {p n : Nat} {d : Drive} {a b : Channel} {r : Option ResumeDue} (hp : p ≤ 21599) (hd : d ≠ .off) : Posture
      { state := .approach, pos := some p, drive := d, homing := none, target := some n, plan := none
        chanA := a, chanB := b, brake := none, resumeDue := r }
  | runup {p : Nat} {pl : Plan} {a b : Channel} {r : Option ResumeDue} (hp : p ≤ 21599) : Posture
      { state := .runup, pos := some p, drive := .on, homing := none, target := none, plan := some pl
        chanA := a, chanB := b, brake := none, resumeDue := r }
  | sweep {p : Nat} {pl : Plan} {a b : Channel} {r : Option ResumeDue} (hp : p ≤ 21599) : Posture
      { state := .sweep, pos := some p, drive := .on, homing := none, target := none, plan := some pl
        chanA := a, chanB := b, brake := none, resumeDue := r }
  | braking {x : Option Nat} {d : Drive} {c : BrakeCause} {a b : Channel} {r : Option ResumeDue}
      (hx : ∀ p, x = some p → p ≤ 21599) (hd : d ≠ .off) : Posture
      { state := .braking, pos := x, drive := d, homing := none, target := none, plan := none
        chanA := a, chanB := b, brake := some c, resumeDue := r }

theorem positionSound_iff (s : State) : positionSound s = true ↔ ∀ p, s.carriage.pos = some p → p ≤ 21599 := by
  simp only [positionSound, Option.all_eq_true, decide_eq_true_eq]; rfl

/-- A sound carriage is in one of the rows. -/
theorem posture_iff (s : State) : Posture s.carriage ↔ carriageSound s = true ∧ positionSound s = true := by
  rw [positionSound_iff]
  simp only [carriageSound]
  generalize s.carriage = c
  constructor
  · intro h
    cases h with
    | placed hp hd hstage => rcases hstage with hstage | hstage <;> simp [hp, hd, hstage]
    | _ => simp_all
  · rintro ⟨hsound, hx⟩
    obtain ⟨st, x, d, h, n, pl, a, b, k, r⟩ := c
    cases st <;> simp only [Bool.and_eq_true, beq_iff_eq, bne_iff_ne, Option.isNone_iff_eq_none,
      Option.isSome_iff_exists, Option.any_eq_true] at hsound
    case unhomed => obtain ⟨⟨⟨⟨⟨rfl, rfl⟩, rfl⟩, rfl⟩, rfl⟩, rfl⟩ := hsound; exact .unhomed
    case idle => obtain ⟨⟨⟨⟨⟨⟨p, rfl⟩, rfl⟩, rfl⟩, rfl⟩, rfl⟩, rfl⟩ := hsound; exact .idle (hx p rfl)
    case homing =>
      obtain ⟨⟨⟨⟨⟨h, rfl, hplace⟩, hd⟩, rfl⟩, rfl⟩, rfl⟩ := hsound
      rcases x with _ | p
      · simp at hplace
        exact .unplaced hd hplace.1 hplace.2
      · simp at hplace
        exact .placed (hx p rfl) hd hplace
    case approach => obtain ⟨⟨⟨⟨⟨⟨p, rfl⟩, hd⟩, rfl⟩, ⟨n, rfl⟩⟩, rfl⟩, rfl⟩ := hsound; exact .approach (hx p rfl) hd
    case runup => obtain ⟨⟨⟨⟨⟨⟨p, rfl⟩, rfl⟩, rfl⟩, rfl⟩, ⟨pl, rfl⟩⟩, rfl⟩ := hsound; exact .runup (hx p rfl)
    case sweep => obtain ⟨⟨⟨⟨⟨⟨p, rfl⟩, rfl⟩, rfl⟩, rfl⟩, ⟨pl, rfl⟩⟩, rfl⟩ := hsound; exact .sweep (hx p rfl)
    case braking => obtain ⟨⟨⟨⟨hd, rfl⟩, rfl⟩, rfl⟩, ⟨k, rfl⟩⟩ := hsound; exact .braking hx hd

/-! ## Moves between the rows -/

section

variable {c : Carriage} {a b : Channel} {r : Option ResumeDue}

/-- The channels and the resume columns due are no part of the table. -/
theorem Posture.aside (h : Posture c) : Posture { c with chanA := a, chanB := b, resumeDue := r } := by
  cases h <;> constructor <;> assumption

theorem Posture.reset : Posture { Carriage.reset with resumeDue := r } := .unhomed

/-- A homing order at rest. -/
theorem Posture.toHoming (h : Posture c) (hrest : c.state.atRest = true) {x : Homing}
    (hx : x.stage = .clearing ∨ x.stage = .seek) :
    Posture { c with state := .homing, pos := none, drive := .on, homing := some x } := by
  have hstages : x.stage ≠ .seekStop ∧ x.stage ≠ .park := by rcases hx with hx | hx <;> simp [hx]
  cases h <;> first | exact .unplaced (by decide) hstages.1 hstages.2 | simp [CarState.atRest] at hrest

theorem Posture.driven (h : Posture c) (hmove : c.state.atRest = false) : c.drive ≠ .off := by
  cases h <;> simp_all [CarState.atRest]

/-- Between the end of its ramp and its rest only a braking, an approach or a homing has its drive released. -/
theorem Posture.resting (h : Posture c) (hdrive : c.drive ≠ .on) : c.state.atRest = true ∨ c.state = .homing
    ∨ c.state = .approach ∨ c.state = .braking := by
  cases h <;> simp_all [CarState.atRest]

/-- The idle carriage is the one at rest with a position. -/
theorem Posture.idle_of_placed (h : Posture c) (hrest : c.state.atRest = true) (hp : c.pos ≠ none) :
    c.state = .idle := by
  cases h <;> simp_all [CarState.atRest]

theorem Posture.toApproach (h : Posture c) (hidle : c.state = .idle) {n : Nat} :
    Posture { c with state := .approach, drive := .on, target := some n } := by
  cases h <;> simp at hidle
  exact .approach ‹_› (by decide)

theorem Posture.toRunup (h : Posture c) (hidle : c.state = .idle) {pl : Plan} :
    Posture { c with state := .runup, drive := .on, plan := some pl, chanA := a, chanB := b } := by
  cases h <;> simp at hidle
  exact .runup ‹_›

theorem Posture.toSweep (h : Posture c) (hrunup : c.state = .runup) :
    Posture { c with state := .sweep, chanA := a, chanB := b } := by
  cases h <;> simp at hrunup
  exact .sweep ‹_›

/-- A run-up, a sweep or a braking goes on as the braking of a cause. -/
theorem Posture.toBraking (h : Posture c) (hst : c.state = .runup ∨ c.state = .sweep ∨ c.state = .braking)
    {k : BrakeCause} :
    Posture { c with state := .braking, brake := some k, plan := none, chanA := a, chanB := b } := by
  cases h <;> simp at hst
  · exact .braking (by simpa) nofun
  · exact .braking (by simpa) nofun
  · exact .braking ‹_› ‹_›

/-- ABORT makes a braking of any motion; the position that homing may have is given up. -/
theorem Posture.abort (h : Posture c) (hmove : c.state.atRest = false) {k : BrakeCause} :
    Posture { c with
      state := .braking, brake := some k, plan := none, chanA := a, chanB := b
      pos := if c.state = .homing then none else c.pos
      homing := none, target := none, resumeDue := r } := by
  cases h <;> simp [CarState.atRest] at hmove
  all_goals exact .braking (by simp_all) (by simp_all)

/-- The end of a braking: IDLE with a position, UNHOMED without. -/
theorem Posture.toRest (h : Posture c) (hst : c.state = .braking) : Posture { c with
    state := if c.pos.isSome then .idle else .unhomed, drive := .off, brake := none } := by
  cases h <;> simp at hst
  rename_i x _ _ _ _ _ hx _
  rcases x with _ | p
  · exact .unhomed
  · exact .idle (hx p rfl)

/-- An approach ends at rest, with the position or without. -/
theorem Posture.arrived (h : Posture c) (hst : c.state = .approach) :
    Posture { c with state := .idle, drive := .off, target := none } := by
  cases h <;> simp at hst
  exact .idle ‹_›

theorem Posture.astray (h : Posture c) (hst : c.state = .approach) :
    Posture { c with state := .unhomed, pos := none, drive := .off, target := none } := by
  cases h <;> simp at hst
  exact .unhomed

/-- The position is lost at rest. -/
theorem Posture.lost (h : Posture c) (hrest : c.state.atRest = true) :
    Posture { c with state := .unhomed, pos := none, drive := .off } := by
  cases h <;> first | exact .unhomed | simp [CarState.atRest] at hrest

/-- A braking goes on without its position. -/
theorem Posture.unplace (h : Posture c) (hst : c.state = .braking) : Posture { c with pos := none } := by
  cases h <;> simp at hst
  exact .braking nofun ‹_›

/-- A drive that is on or released moves or brakes the same motion. -/
theorem Posture.drive (h : Posture c) (hst : c.state = .homing ∨ c.state = .approach ∨ c.state = .braking) {d : Drive}
    (hd : d ≠ .off) : Posture { c with drive := d } := by
  cases h <;> simp at hst
  · exact .unplaced hd ‹_› ‹_›
  · exact .placed ‹_› hd ‹_›
  · exact .approach ‹_› hd
  · exact .braking ‹_› hd

/-- A valid position moves within the travel. -/
theorem Posture.move (h : Posture c) (hc : c.pos ≠ none) {q : Nat} (hq : q ≤ 21599) : Posture { c with pos := some q } := by
  cases h <;> simp at hc
  · exact .idle hq
  · exact .placed hq ‹_› ‹_›
  · exact .approach hq ‹_›
  · exact .runup hq
  · exact .sweep hq
  · exact .braking (by simpa using hq) ‹_›

end

/-! ### Homing -/

section

variable {c : Carriage} {x y : Homing}

/-- A homing's next stage where the position has the validity the stage calls for. -/
theorem Posture.stage (h : Posture c) (hst : c.state = .homing) {d : Drive} (hd : d ≠ .off)
    (hpos : c.pos = none ↔ y.stage ≠ .seekStop ∧ y.stage ≠ .park) :
    Posture { c with drive := d, homing := some y } := by
  cases h <;> simp at hst
  · obtain ⟨hstop, hpark⟩ := hpos.1 rfl
    exact .unplaced hd hstop hpark
  · refine .placed ‹_› hd ?_
    by_contra hne
    simp at hne
    simpa using hpos.2 hne

/-- The position is valid from the end of the seek on. -/
theorem Posture.homing_pos (h : Posture c) (hx : c.homing = some x) :
    c.pos = none ↔ x.stage ≠ .seekStop ∧ x.stage ≠ .park := by
  cases h <;> simp at hx
  · subst hx
    simp [*]
  · subst hx
    rename_i hstage
    rcases hstage with hstage | hstage <;> simp [hstage]

/-- The seek ends where the sensor is found. -/
theorem Posture.found (h : Posture c) (hst : c.state = .homing) (hy : y.stage = .seekStop) {p : Nat} (hp : p ≤ 21599) :
    Posture { c with pos := some p, homing := some y } := by
  cases h <;> simp at hst
  · exact .placed hp ‹_› (.inl hy)
  · exact .placed hp ‹_› (.inl hy)

/-- The park move ends at 360. -/
theorem Posture.homed (h : Posture c) (hst : c.state = .homing) (hpos : c.pos = some 360) :
    Posture { c with state := .idle, drive := .off, homing := none } := by
  cases h <;> simp at hst
  · simp at hpos
  · exact .idle ‹_›

end

/-! ## The acts of the carriage -/

section

variable {s : State}

theorem posture_homingOrder (h : Posture s.carriage) (hrest : carriageAtRest s = true) (src : HomingSource) :
    Posture (homingOrder src s).carriage :=
  h.toHoming hrest (by cases s.pins.homeCovered <;> simp)

theorem posture_giveOwedHoming (h : Posture s.carriage) : Posture (giveOwedHoming s).carriage := by
  unfold giveOwedHoming
  split
  · rename_i hdue
    obtain ⟨-, hrest⟩ := Bool.and_eq_true_iff.1 hdue
    exact posture_homingOrder (s := s.setRunner _) h hrest _
  · exact h

theorem posture_approachOrder (h : Posture s.carriage) (hidle : s.carriage.state = .idle) (n : Nat) :
    Posture (approachOrder n s).carriage := by
  unfold approachOrder
  split
  · exact h
  · exact h.toApproach hidle

theorem posture_flushResume (h : Posture s.carriage) : Posture (flushResume s).carriage := by
  unfold flushResume
  split
  · exact h.aside
  · exact h

theorem posture_brakeFor (h : Posture s.carriage)
    (hst : s.carriage.state = .runup ∨ s.carriage.state = .sweep ∨ s.carriage.state = .braking) (k : BrakeCause) :
    Posture (brakeFor k s).carriage := h.toBraking hst

theorem posture_stopSweep (h : Posture s.carriage) (hst : s.carriage.state = .sweep) (k : BrakeCause) :
    Posture (stopSweep k s).carriage :=
  posture_flushResume (posture_brakeFor (s := dropPending s) h (.inr (.inl hst)) k).aside

theorem posture_suspendTrigger (h : Posture s.carriage) (r : SuspendReason) :
    Posture (suspendTrigger r s).carriage := by
  unfold suspendTrigger
  split
  · split
    · exact h
    · exact posture_stopSweep h ‹_› _
  · exact posture_brakeFor h (.inl ‹_›) _
  · exact h

theorem posture_checkSweepEnd (h : Posture s.carriage) : Posture (checkSweepEnd s).carriage := by
  unfold checkSweepEnd
  split
  · rename_i hend
    exact posture_brakeFor (by simpa using h) (by simp [hend.1]) _
  · exact h

/-- A stall loses the position, whatever the carriage did. -/
theorem posture_carriageLost (s : State) : Posture (carriageLost s).carriage :=
  posture_flushResume .reset

theorem posture_stall (pos : Option Nat) (s : State) : Posture (stall pos s).carriage := by
  refine posture_giveOwedHoming ?_
  simpa [apply_ite State.carriage] using posture_carriageLost _

theorem posture_stallTimerExpiry (h : Posture s.carriage) : Posture (stallTimerExpiry s).carriage := by
  unfold stallTimerExpiry
  split
  · simpa using posture_stall _ _
  · exact h

theorem ramping_state (h : ramping s = true) :
    s.carriage.state = .homing ∨ s.carriage.state = .approach ∨ s.carriage.state = .braking := by
  unfold ramping at h
  split at h <;> simp_all

theorem posture_brakeRampEnd (h : Posture s.carriage) : Posture (brakeRampEnd s).carriage := by
  unfold brakeRampEnd
  split
  · rename_i hramp
    exact h.drive (ramping_state hramp.2) nofun
  · exact h

theorem posture_finishBraking (h : Posture s.carriage) (hst : s.carriage.state = .braking) :
    Posture (finishBraking s).carriage := by
  have hrest := h.toRest hst
  refine posture_giveOwedHoming ?_
  dsimp only
  split <;> simpa using hrest

theorem posture_homingRest (h : Posture s.carriage) {x : Homing} (hst : s.carriage.state = .homing)
    (hx : s.carriage.homing = some x) : Posture (homingRest x s).carriage := by
  have hpos := h.homing_pos hx
  unfold homingRest
  split
  · exact h.stage hst nofun (by simp_all)
  · exact h.stage hst nofun (by simp_all)
  · split
    · rename_i hpark
      simpa using h.homed hst hpark
    · exact h.stage hst nofun (by simp_all)
  · exact h
  · exact h

theorem posture_restDetected (h : Posture s.carriage) : Posture (restDetected s).carriage := by
  unfold restDetected
  split
  · split
    · split
      · simpa using posture_homingRest h ‹_› ‹_›
      · exact h
    · split
      · simpa using h.arrived ‹_›
      · exact h.drive (.inr (.inl ‹_›)) nofun
    · simpa using posture_finishBraking h ‹_›
    · exact h
  · exact h

theorem posture_homeSensorChange (h : Posture s.carriage) (covered : Bool) :
    Posture (homeSensorChange covered s).carriage := by
  unfold homeSensorChange
  split
  · exact h
  · dsimp only
    split
    · rename_i x hst hx
      have hpos := h.homing_pos hx
      split
      · exact h.stage hst (h.driven (by simp [hst, CarState.atRest])) (by simp_all)
      · exact h.found hst rfl (by decide)
      · exact h
    · exact h

theorem posture_crossLimit (h : Posture s.carriage) (n : Nat) : Posture (crossLimit n s).carriage := by
  unfold crossLimit
  split
  · exact posture_stall _ _
  · rename_i hfree
    obtain ⟨hhoming, hdrive⟩ := not_or.1 hfree
    dsimp only
    split
    · rename_i hst
      exact posture_finishBraking (s := s.setCarriage _) (h.unplace hst) hst
    · rename_i hst
      exact posture_giveOwedHoming (by simpa using h.astray hst)
    · refine h.lost ?_
      rcases h.resting hdrive with hrest | hst | hst | hst
      · exact hrest
      · exact absurd hst hhoming
      · simp_all
      · simp_all

theorem posture_abortCarriage (h : Posture s.carriage) : Posture (abortCarriage s).carriage := by
  unfold abortCarriage
  split
  · exact h.aside
  · rename_i hmove
    exact h.abort (Bool.eq_false_iff.2 hmove)

end

/-! ## The acts of the driver and the encoder edges -/

section

variable {s : State}

theorem posture_haltSweep (h : Posture s.carriage) : Posture (haltSweep s).carriage := by
  unfold haltSweep
  split
  · exact posture_stopSweep h ‹_› _
  · rename_i hst _
    refine posture_flushResume ?_
    generalize hc : s.carriage = c at h
    cases h <;> simp [hc] at hst
    simpa using Posture.braking ‹_› ‹_›
  · exact posture_flushResume h

theorem posture_takeDriveFault (h : Posture s.carriage) : Posture (takeDriveFault s).carriage := by
  unfold takeDriveFault
  split
  · exact h
  · simpa [apply_ite State.carriage] using posture_haltSweep (by simpa using h)

theorem posture_checkDriveFault (h : Posture s.carriage) : Posture (checkDriveFault s).carriage := by
  unfold checkDriveFault
  split
  · exact posture_takeDriveFault h
  · exact h

theorem posture_driveFaultInput (h : Posture s.carriage) (asserted : Bool) :
    Posture (driveFaultInput asserted s).carriage := by
  simp only [driveFaultInput, settleTear_frame]
  exact posture_checkDriveFault (by simpa using h)

theorem posture_burstSlot (h : Posture s.carriage) : Posture (burstSlot s).carriage := by
  unfold burstSlot
  split
  · exact h
  · split
    · dsimp only
      split
      · exact posture_suspendTrigger (by simpa using h) _
      · simpa using h
    · exact h

theorem posture_burstEnd (h : Posture s.carriage) : Posture (burstEnd s).carriage := by
  unfold burstEnd
  split
  · exact h
  · split
    · simp only [settleTear_frame]
      refine posture_checkSweepEnd (posture_checkDriveFault ?_)
      simp only [startPending_frame]
      exact posture_flushResume (by simpa using h)
    · exact h

theorem posture_coverOpens (h : Posture s.carriage) : Posture (coverOpens s).carriage := by
  unfold coverOpens
  split
  · exact h
  · exact posture_suspendTrigger (by simpa using h) _

theorem posture_compareAt (h : Posture s.carriage) (q : Nat) : Posture (compareAt q s).carriage := by
  unfold compareAt
  refine posture_checkSweepEnd (posture_checkDriveFault ?_)
  simpa [apply_ite State.carriage] using h.aside

theorem posture_endRunUp (h : Posture s.carriage) (hst : s.carriage.state = .runup) (q : Nat) :
    Posture (endRunUp q s).carriage :=
  posture_compareAt (by simpa using h.toSweep hst) q

theorem posture_edgeAt (h : Posture s.carriage) (dir : Dir) (q : Nat) : Posture (edgeAt dir q s).carriage := by
  unfold edgeAt
  split
  · split
    · exact posture_endRunUp h ‹_› q
    · exact h
  · split
    · exact posture_compareAt h q
    · exact h
  · exact h

theorem posture_edgeUnplaced (h : Posture s.carriage) (dir : Dir) : Posture (edgeUnplaced dir s).carriage := by
  unfold edgeUnplaced
  split
  · rename_i x hst hx
    have hpos := h.homing_pos hx
    have hdrive := h.driven (by simp [hst, CarState.atRest])
    split
    · dsimp only
      split
      · exact posture_stall _ _
      · exact h.stage hst hdrive (by simp_all)
    · dsimp only
      split
      · exact posture_stall _ _
      · exact h.stage hst hdrive (by simp_all)
    · exact h
  · exact h

theorem moveCount_le {dir : Dir} {p q : Nat} (h : moveCount dir p = some q) : q ≤ 21599 := by
  have htravel : Config.travelEnd = 21599 := rfl
  cases dir <;> simp only [moveCount, htravel] at h <;> split at h <;> simp at h <;> omega

theorem posture_countEdge (h : Posture s.carriage) (dir : Dir) : Posture (countEdge dir s).carriage := by
  have hs : Posture (if s.carriage.drive = .off then s else startStall s).carriage := by
    simpa [apply_ite State.carriage] using h
  unfold countEdge
  simp only [settleTear_frame]
  split
  · exact posture_edgeUnplaced hs dir
  · rename_i p hp
    split
    · exact posture_crossLimit hs _
    · exact posture_edgeAt (s := State.setCarriage _ _) (hs.move (by simp [hp]) (moveCount_le ‹_›)) dir _

theorem posture_encoderEdge (h : Posture s.carriage) (q : Quad) : Posture (encoderEdge q s).carriage :=
  posture_countEdge (by simpa using h) _

end

/-! ## The runner's orders -/

section

variable {s : State}

theorem posture_planHead (h : Posture s.carriage) (hidle : s.carriage.state = .idle) (e : Entry) (p : Pass) (pos : Nat) :
    Posture (planHead e p pos s).carriage := by
  unfold planHead
  split
  · exact h
  · exact h
  · exact posture_approachOrder (by simpa using h) (by simpa using hidle) _

theorem posture_position (h : Posture s.carriage) : Posture (position s).carriage := by
  unfold position
  split
  · rename_i hdue
    obtain ⟨-, -, -, -, hrest, -⟩ := hdue
    split
    · simpa using posture_homingOrder h hrest _
    · split
      · exact posture_planHead h (h.idle_of_placed hrest (by simp [*])) _ _ _
      · exact h
    · exact h
  · exact h

theorem posture_sweepOrder (h : Posture s.carriage) : Posture (sweepOrder s).carriage := by
  unfold sweepOrder
  split
  · exact h
  · split
    · rename_i hdue
      obtain ⟨-, -, -, hrest, -⟩ := hdue
      split
      · exact h
      · have hidle := h.idle_of_placed hrest (by simp [*])
        split
        · exact h.toRunup hidle
        · exact posture_approachOrder h hidle _
    · exact h

theorem posture_lookAheadPlan (h : Posture s.carriage) : Posture (lookAheadPlan s).carriage := by
  unfold lookAheadPlan
  split
  · split
    · split
      · rename_i hdue
        obtain ⟨-, -, hopen, -⟩ := hdue
        split
        · exact posture_approachOrder (by simpa using h) (by simpa using ((lookAheadOpen_iff s).1 hopen).2.1) _
        · exact h
        · exact h
      · exact h
    · exact h
  · exact h

end

/-! ## The requests -/

section

variable {s : State}

theorem posture_reqPause (h : Posture s.carriage) : Posture (reqPause s).state.carriage := by
  simp only [reqPause, accept, settleTear_frame]
  exact posture_suspendTrigger (by simpa using h) _

theorem posture_reqHome (h : Posture s.carriage) : Posture (reqHome s).state.carriage := by
  unfold reqHome
  split
  · exact h
  split
  · exact h
  · rename_i hbusy
    have hrest : carriageAtRest s = true := by
      simp only [motionBusy, Bool.or_eq_true, not_or, Bool.not_eq_true', Bool.not_eq_false] at hbusy
      exact hbusy.1.2
    simpa [accept] using posture_homingOrder h hrest _

theorem posture_reqAbort (h : Posture s.carriage) : Posture (reqAbort s).state.carriage := by
  simp only [reqAbort, accept, abortAll, settleTear_frame, apply_ite State.carriage, latch_frame, stopPaper_frame,
    ite_self]
  exact posture_abortCarriage (by simpa using h)

theorem posture_reqClearFault (h : Posture s.carriage) : Posture (reqClearFault s).state.carriage := by
  unfold reqClearFault
  split
  · exact h
  split
  · exact h
  · dsimp only
    split
    · simpa [accept] using h
    · simp only [accept, settleTear_frame]
      exact posture_giveOwedHoming (by simpa using h)

end

/-! ### Taking a request -/

/-- An owner keeps the carriage in one of the rows. -/
def KeepsPosture (owner : State → Verdict) : Prop := ∀ s, Posture s.carriage → Posture (owner s).state.carriage

/-- An owner leaves the carriage as it is. -/
def LeavesCarriage (owner : State → Verdict) : Prop := ∀ s, (owner s).state.carriage = s.carriage

theorem LeavesCarriage.keeps {owner : State → Verdict} (h : LeavesCarriage owner) : KeepsPosture owner :=
  fun s hs => (h s).symm ▸ hs

theorem leavesCarriage_refuse (c : ResultCode) : LeavesCarriage (refuse c) := fun _ => rfl

theorem keepsPosture_noPayload {owner : State → Verdict} (h : KeepsPosture owner) (payload : List Byte) :
    KeepsPosture (noPayload owner payload) := by
  cases payload with
  | nil => exact h
  | cons => exact (leavesCarriage_refuse _).keeps

theorem keepsPosture_onePayload {owner : Byte → State → Verdict} (h : ∀ b, LeavesCarriage (owner b))
    (payload : List Byte) : KeepsPosture (onePayload owner payload) := by
  unfold onePayload
  split
  · exact (h _).keeps
  · exact (leavesCarriage_refuse _).keeps

theorem keepsPosture_readPayload {α : Type} {read : List Byte → Option α} {owner : α → State → Verdict}
    (h : ∀ r, LeavesCarriage (owner r)) (payload : List Byte) : KeepsPosture (readPayload read owner payload) := by
  unfold readPayload
  split
  · exact (h _).keeps
  · exact (leavesCarriage_refuse _).keeps

/-- Of the owners only those of PAUSE, ABORT, CLEAR_FAULT and HOME reach the carriage. -/
theorem keepsPosture_ownerOf (kind : Byte) (payload : List Byte) : KeepsPosture (ownerOf kind payload) := by
  have leaves : ∀ {owner : State → Verdict}, LeavesCarriage owner → KeepsPosture (noPayload owner payload) :=
    fun h => keepsPosture_noPayload h.keeps payload
  unfold ownerOf
  split
  case h_4 | h_6 | h_8 | h_12 => exact keepsPosture_readPayload (fun r s => by simp) _
  case h_7 => exact LeavesCarriage.keeps fun s => by simp
  case h_9 | h_10 | h_14 | h_16 => exact keepsPosture_onePayload (fun b s => by simp) _
  case h_13 =>
    unfold imagePayload
    split <;> exact LeavesCarriage.keeps fun s => by simp
  case h_15 =>
    unfold advancePayload
    split <;> exact LeavesCarriage.keeps fun s => by simp
  case h_17 => exact keepsPosture_noPayload (fun _ => posture_reqPause) _
  case h_19 => exact keepsPosture_noPayload (fun _ => posture_reqAbort) _
  case h_20 => exact keepsPosture_noPayload (fun _ => posture_reqClearFault) _
  case h_21 => exact keepsPosture_noPayload (fun _ => posture_reqHome) _
  case h_22 => exact (leavesCarriage_refuse _).keeps
  all_goals exact leaves fun s => by simp

theorem posture_takeRequest {s : State} (h : Posture s.carriage) {kind : Byte} {owner : State → Verdict}
    (howner : KeepsPosture owner) : Posture (takeRequest kind owner s).carriage := by
  unfold takeRequest
  split
  · exact h
  split
  · exact h
  split
  · simpa using h
  · simpa using howner s h

@[simp] theorem takeRequest_carriage {kind : Byte} {owner : State → Verdict}
    (h : ∀ s, (owner s).state.carriage = s.carriage) (s : State) : (takeRequest kind owner s).carriage = s.carriage := by
  have howner := h s
  unfold takeRequest
  (repeat' split) <;> simp [howner]

@[simp] theorem lengthFault_carriage (b : Byte) (s : State) : (lengthFault b s).carriage = s.carriage := by
  unfold lengthFault; split <;> simp

@[simp] theorem lineFault_carriage (s : State) : (lineFault s).carriage = s.carriage := by
  unfold lineFault; split <;> simp

@[simp] theorem byteGapTimerExpiry_carriage (s : State) : (byteGapTimerExpiry s).carriage = s.carriage := by
  unfold byteGapTimerExpiry; split <;> simp

theorem posture_frameComplete {s : State} (h : Posture s.carriage) (b : Byte) :
    Posture (frameComplete b s).carriage := by
  unfold frameComplete
  split
  · unfold completeFrame
    dsimp only
    split
    · exact posture_takeRequest (by simpa using h) (keepsPosture_ownerOf _ _)
    · simpa using h
  · exact h

theorem posture_byteReceived {s : State} (h : Posture s.carriage) (b : Byte) :
    Posture (byteReceived b s).carriage := by
  unfold byteReceived
  split
  · exact h
  · split <;> split
    case h_2.isTrue => exact (lengthFault_carriage b s).symm ▸ h
    case h_4.isTrue => exact posture_frameComplete h b
    all_goals simpa using h

/-! ## Every command -/

theorem posture_warmValues (s : State) : Posture (warmValues s).carriage := .unhomed

theorem posture_powerOnReset (l : Levels) (s : State) : Posture (powerOnReset l s).carriage := by
  simp only [powerOnReset, endReset_frame]
  exact .unhomed

theorem posture_resetNAssert {s : State} (h : Posture s.carriage) : Posture (resetNAssert s).carriage := by
  unfold resetNAssert
  split
  · exact h
  · exact posture_warmValues s

theorem posture_resetNRelease {s : State} (h : Posture s.carriage) (b a : Bool) :
    Posture (resetNRelease b a s).carriage := by
  unfold resetNRelease
  split <;> simpa using h

theorem posture_warmReset {s : State} (h : Posture s.carriage) (b a : Bool) : Posture (warmReset b a s).carriage := by
  unfold warmReset
  split
  · simpa using posture_warmValues s
  · exact h

theorem posture_replySent {s : State} (h : Posture s.carriage) : Posture (replySent s).carriage := by
  unfold replySent
  split
  · exact posture_warmReset h _ _
  · exact h

theorem posture_exec {s : State} (h : Posture s.carriage) (c : Instr) :
    ∃ t, exec c s = .next t ∧ Posture t.carriage := by
  cases c with
  | powerOnReset l => exact ⟨_, rfl, posture_powerOnReset l s⟩
  | resetNAssert => exact ⟨_, rfl, posture_resetNAssert h⟩
  | resetNRelease b a => exact ⟨_, rfl, posture_resetNRelease h b a⟩
  | warmReset b a => exact ⟨_, rfl, posture_warmReset h b a⟩
  | replySent => exact ⟨_, rfl, posture_replySent h⟩
  | frameComplete b => exact ⟨_, rfl, posture_frameComplete h b⟩
  | byteReceived b => exact ⟨_, rfl, posture_byteReceived h b⟩
  | pause => exact ⟨_, rfl, posture_takeRequest h fun _ => posture_reqPause⟩
  | abort => exact ⟨_, rfl, posture_takeRequest h fun _ => posture_reqAbort⟩
  | clearFault => exact ⟨_, rfl, posture_takeRequest h fun _ => posture_reqClearFault⟩
  | home => exact ⟨_, rfl, posture_takeRequest h fun _ => posture_reqHome⟩
  | stallTimerExpiry => exact ⟨_, rfl, posture_stallTimerExpiry h⟩
  | restDetected => exact ⟨_, rfl, posture_restDetected h⟩
  | brakeRampEnd => exact ⟨_, rfl, posture_brakeRampEnd h⟩
  | encoderEdge q => exact ⟨_, rfl, posture_encoderEdge h q⟩
  | homeSensorChange covered => exact ⟨_, rfl, posture_homeSensorChange h covered⟩
  | burstSlot => exact ⟨_, rfl, posture_burstSlot h⟩
  | burstEnd => exact ⟨_, rfl, posture_burstEnd h⟩
  | driveFault asserted => exact ⟨_, rfl, posture_driveFaultInput h asserted⟩
  | coverOpen => exact ⟨_, rfl, posture_coverOpens h⟩
  | position => exact ⟨_, rfl, posture_position h⟩
  | sweepOrder => exact ⟨_, rfl, posture_sweepOrder h⟩
  | lookAheadPlan => exact ⟨_, rfl, posture_lookAheadPlan h⟩
  | _ => exact ⟨_, rfl, by simpa using h⟩

theorem posture_step {s t : State} (h : Posture s.carriage) (hstep : step s = .next t) : Posture t.carriage := by
  unfold step at hstep
  split at hstep
  · obtain rfl := Host.Outcome.next.inj hstep
    exact h
  · rename_i c rest _
    obtain ⟨u, hu, hkept⟩ := posture_exec (s := s.setPending rest) h c
    obtain rfl := Host.Outcome.next.inj (hu.symm.trans hstep)
    exact hkept

/-! ## CAR_EN and CAR_DIR -/

theorem carEn_iff (s : State) : carEn s = true ↔ s.carriage.drive = .on := by simp [carEn]

section

variable {s : State} (hsound : carriageSound s = true)

include hsound

theorem carEn_of_rest (hst : s.carriage.state = .unhomed ∨ s.carriage.state = .idle) : carEn s = false := by
  rcases hst with hst | hst <;> simp_all [carriageSound, carEn]

theorem carDir_of_sweep (hst : s.carriage.state = .runup ∨ s.carriage.state = .sweep) :
    carEn s = true ∧ ∃ pl, s.carriage.plan = some pl ∧ carDir s = some pl.dir := by
  have hrow : s.carriage.drive = .on ∧ ∃ pl, s.carriage.plan = some pl := by
    rcases hst with hst | hst <;> simp_all [carriageSound, Option.isSome_iff_exists]
  obtain ⟨hdrive, pl, hpl⟩ := hrow
  exact ⟨(carEn_iff s).2 hdrive, pl, hpl, by rcases hst with hst | hst <;> simp [carDir, hst, hpl]⟩

theorem carDir_of_approach (hst : s.carriage.state = .approach) : ∃ p goal, s.carriage.pos = some p
    ∧ s.carriage.target = some goal ∧ (p < goal → carDir s = some .fwd) ∧ (goal < p → carDir s = some .rev) := by
  have hrow : (∃ p, s.carriage.pos = some p) ∧ ∃ goal, s.carriage.target = some goal := by
    simp_all [carriageSound, Option.isSome_iff_exists]
  obtain ⟨⟨p, hp⟩, goal, hgoal⟩ := hrow
  have hdir : carDir s = some (if p ≤ goal then .fwd else .rev) := by simp [carDir, hst, hp, hgoal]
  exact ⟨p, goal, hp, hgoal, fun h => by rw [hdir, if_pos (by omega)], fun h => by rw [hdir, if_neg (by omega)]⟩

end

theorem carDir_of_homing {s : State} {h : Homing} (hst : s.carriage.state = .homing) (hh : s.carriage.homing = some h) :
    (h.stage = .clearing → carDir s = some .fwd) ∧ (h.stage = .seek → carDir s = some .rev)
      ∧ ∀ p, h.stage = .park → s.carriage.pos = some p →
        (p < 360 → carDir s = some .fwd) ∧ (360 < p → carDir s = some .rev) := by
  refine ⟨fun hx => by simp [carDir, hst, hh, hx], fun hx => by simp [carDir, hst, hh, hx], fun p hx hp => ?_⟩
  have hdir : carDir s = some (if p ≤ Config.parkPosition then .fwd else .rev) := by
    simp [carDir, hst, hh, hx, hp]
  have hpark : Config.parkPosition = 360 := rfl
  exact ⟨fun h => by rw [hdir, if_pos (by omega)], fun h => by rw [hdir, if_neg (by omega)]⟩

/-- Settles O58: every command keeps the carriage in one of the rows of R45; CAR_EN and CAR_DIR are read off the row. -/
theorem stepKeepsCarriageSound : Obligations.StepKeepsCarriageSound :=
  ⟨fun s t hsound hpos hstep => (posture_iff t).1 (posture_step ((posture_iff s).2 ⟨hsound, hpos⟩) hstep),
    fun s => ⟨carEn_iff s, fun hsound => ⟨carEn_of_rest hsound, carDir_of_sweep hsound,
      fun _ hst hh _ => carDir_of_homing hst hh, fun hst _ => carDir_of_approach hsound hst⟩⟩⟩

end Sys2Proof.Machine
end

section
/-! HOME, and the suspend triggers of PAUSE and of the opening cover. -/

namespace Sys2Proof.Machine

/-! ## The tear timer while the carriage moves -/

/-- A carriage in motion keeps the tear timer stopped. -/
theorem tearReady_of_moving {s : State} (h : carriageAtRest s = false) : tearReady s = false := by simp [tearReady, h]

/-! ## HOME -/

section

variable {s : State}

theorem reqHome_of_fault (h : s.runner.fault ≠ none) : reqHome s = refuse .fault s :=
  if_pos (Option.isSome_iff_ne_none.2 h)

theorem reqHome_of_busy (h : s.runner.fault = none) (hbusy : motionBusy s = true) : reqHome s = refuse .busy s := by
  simp [reqHome, h, hbusy]

theorem reqHome_of_free (h : s.runner.fault = none) (hbusy : motionBusy s = false) : reqHome s = accept
    ((homingOrder .host s).setTime { s.time with stall := some 20, tearIdle := none }) := by
  have hmoves : tearReady (homingOrder .host s) = false := tearReady_of_moving rfl
  simp only [reqHome, h, hbusy, settleTear_of_not hmoves]
  rfl

end

/-- Settles O20: the two refusals in their order, then the homing order. -/
theorem homeStartsHoming : Obligations.HomeStartsHoming := by
  intro s hopen
  have hexec : exec .home s = .next (replied 0x34#8 (reqHome s).code.byte (reqHome s).data (reqHome s).state) :=
    congrArg Host.Outcome.next (takeRequest_of_open hopen)
  refine ⟨motionBusy s = true, motionBusy_iff s, fun hfault => ?_, fun hfault hbusy => ?_, fun hfault hfree => ?_⟩
  · rw [hexec, reqHome_of_fault hfault]; rfl
  · rw [hexec, reqHome_of_busy hfault hbusy]; rfl
  · rw [hexec, reqHome_of_free hfault (Bool.eq_false_iff.2 hfree)]; rfl

/-! ## Suspend triggers -/

/-- The resume columns written into the head print entry. -/
theorem flushResume_cons {s : State} {d : ResumeDue} {e : Entry} {rest : List Entry}
    (h : s.carriage.resumeDue = some d) (hr : s.driver.running = none) (hq : s.queue = e :: rest) :
    flushResume s = (s.setQueue ({ e with
        pass := e.pass.map fun p => { p with
          resumeA := some (resumeOf s.pool p .a d.listA)
          resumeB := some (resumeOf s.pool p .b d.listB) } } :: rest)).setCarriage
      { s.carriage with resumeDue := none } := by
  rw [flushResume_of_due h hr, mapHeadPass_cons hq]

section

variable {u : State} {pl : Plan} {cause : BrakeCause}

theorem sweepGrade_of_plan (h : u.carriage.plan = some pl) : sweepGrade u = pl.grade := by simp [sweepGrade, h]

theorem planLists_of_plan (h : u.carriage.plan = some pl) :
    planLists u = some { listA := pl.listA, listB := pl.listB } := by simp [planLists, h]

/-- A sweep stopped while a burst runs: the resume columns are left due. -/
theorem stopSweep_of_running (h : u.carriage.plan = some pl) {r : Running} (hr : u.driver.running = some r) :
    stopSweep cause u = (brakeFor cause (dropPending u)).setCarriage { (brakeFor cause u).carriage with
      resumeDue := some { listA := pl.listA, listB := pl.listB } } := by
  unfold stopSweep
  rw [planLists_of_plan h]
  exact flushResume_of_running hr

/-- A sweep stopped while no burst runs: the resume columns are written at once. -/
theorem stopSweep_of_free (h : u.carriage.plan = some pl) (hr : u.driver.running = none) {e : Entry} {rest : List Entry}
    {p : Pass} (hq : u.queue = e :: rest) (hp : e.pass = some p) :
    stopSweep cause u = (brakeFor cause (dropPending (u.setQueue ({ e with
        pass := some { p with
          resumeA := some (resumeOf u.pool p .a pl.listA)
          resumeB := some (resumeOf u.pool p .b pl.listB) } } :: rest)))).setCarriage
      { (brakeFor cause u).carriage with resumeDue := none } := by
  unfold stopSweep
  rw [planLists_of_plan h]
  refine (flushResume_cons rfl (by exact hr) (by exact hq)).trans ?_
  rw [hp]
  rfl

end

/-- PAUSE and COVER_OPEN hand the same trigger to the carriage, PAUSE behind a reply. -/
theorem exec_suspend {s u : State} {c : Instr} (h : (linkOpen s = true ∧ c = .pause
      ∧ u = { s with runner := { s.runner with pause := true } })
    ∨ (s.pins.coverOpen = false ∧ c = .coverOpen ∧ u = { s with pins := { s.pins with coverOpen := true } })) :
    exec c s = .next (if c = .pause then
      replied 0x30#8 0x00#8 [] ((suspendTrigger .hold u).setTime
        { (suspendTrigger .hold u).time with tearIdle := none })
      else suspendTrigger .hold u) := by
  rcases h with ⟨hopen, rfl, rfl⟩ | ⟨hclosed, rfl, rfl⟩
  · have hpause : tearReady (suspendTrigger .hold (setPause true s)) = false := tearReady_of_pause (by simp [setPause])
    rw [if_pos rfl]
    refine (congrArg Host.Outcome.next (takeRequest_of_open hopen)).trans ?_
    simp only [reqPause, settleTear_of_not hpause]
    rfl
  · rw [if_neg nofun]
    simp only [exec, execCoverOpen, coverOpens, hclosed]
    rfl

/-- Settles O26: the trigger acts by the carriage's state; a sweep with work left is stopped as `stopSweep` says. -/
theorem suspendTriggersTaken : Obligations.SuspendTriggersTaken := by
  intro s pl hpl
  refine ⟨brakeFor (.suspend .hold pl.grade), fun u => rfl, fun c u h => ⟨_, exec_suspend h, ?_⟩⟩
  have hcar : u.carriage = s.carriage := by rcases h with ⟨-, -, rfl⟩ | ⟨-, -, rfl⟩ <;> rfl
  have hdrv : u.driver = s.driver := by rcases h with ⟨-, -, rfl⟩ | ⟨-, -, rfl⟩ <;> rfl
  have hqueue : u.queue = s.queue := by rcases h with ⟨-, -, rfl⟩ | ⟨-, -, rfl⟩ <;> rfl
  have hpool : u.pool = s.pool := by rcases h with ⟨-, -, rfl⟩ | ⟨-, -, rfl⟩ <;> rfl
  have hplan : u.carriage.plan = some pl := by rw [hcar, hpl]
  rw [← hcar, ← hdrv, ← hqueue, ← hpool]
  refine ⟨fun hst => ?_, fun hst ha hb hpa hpb => ?_, fun hst hwork => ?_⟩
  · rw [suspendTrigger_runup hst, sweepGrade_of_plan hplan]
  · exact suspendTrigger_spent hst ((Channel.exhausted_iff _).2 ha) ((Channel.exhausted_iff _).2 hb) hpa hpb
  · have hleft : u.carriage.chanA.exhausted = false ∨ u.carriage.chanB.exhausted = false ∨ u.driver.pendA ≠ none
        ∨ u.driver.pendB ≠ none := by
      simpa only [Channel.exhausted, decide_eq_false_iff_not, Nat.not_le] using hwork
    rw [suspendTrigger_sweep hst hleft, sweepGrade_of_plan hplan]
    exact ⟨fun r hr => stopSweep_of_running hplan hr, fun hr e rest p hq hp => stopSweep_of_free hplan hr hq hp⟩

end Sys2Proof.Machine
end

section
/-! Rest: the end of a ramp, and how each motion ends as it comes to rest. -/

namespace Sys2Proof.Machine

/-! ## The homing that CLEAR_FAULT owes -/

/-- The homing that `s` owes, given in `u` at the sensor's level of `s`, with what it leaves of the position. -/
def owedHoming (s : State) (place : Option Nat) (u : State) : State :=
  if s.runner.homingOwed then
    { u with
      carriage :=
        { u.carriage with
          state := .homing, pos := place, drive := .on
          homing := some
            { source := .clearFault, stage := if s.pins.homeCovered then .clearing else .seek, travel := 0 } }
      runner := { u.runner with homingOwed := false }
      time := { u.time with stall := some 20 } }
  else u

theorem owedHoming_of_not_owed {s : State} (h : s.runner.homingOwed = false) (place : Option Nat) (u : State) :
    owedHoming s place u = u := by simp [owedHoming, h]

theorem owedHoming_of_owed {s : State} (h : s.runner.homingOwed = true) (place : Option Nat) (u : State) :
    owedHoming s place u =
      { u with
        carriage :=
          { u.carriage with
            state := .homing, pos := place, drive := .on
            homing := some
              { source := .clearFault, stage := if s.pins.homeCovered then .clearing else .seek, travel := 0 } }
        runner := { u.runner with homingOwed := false }
        time := { u.time with stall := some 20 } } := if_pos h

/-- At rest the homing owed is given, if any is. -/
theorem giveOwedHoming_eq {s u : State} (hrest : carriageAtRest u = true)
    (howed : u.runner.homingOwed = s.runner.homingOwed) (hpin : u.pins.homeCovered = s.pins.homeCovered) :
    giveOwedHoming u = owedHoming s none u := by
  rcases h : s.runner.homingOwed
  · rw [giveOwedHoming_of_not_owed (howed.trans h), owedHoming_of_not_owed h]
  · rw [giveOwedHoming_of_owed (howed.trans h) hrest, owedHoming_of_owed h, ← hpin]
    rfl

/-! ## The end of a braking -/

/-- The carriage at the rest that ends a braking, whatever the braking was for. -/
def braked (s : State) : State :=
  { s with
    carriage := { s.carriage with state := if s.carriage.pos = none then .unhomed else .idle, drive := .off, brake := none }
    time := { s.time with stall := none } }

section

variable {s : State}

theorem finishBraking_eq (s : State) : finishBraking s = giveOwedHoming (match s.carriage.brake with
    | some (.sweepEnd _) => (braked s).setRunner { s.runner with phase := .advance }
    | some (.suspend r _) =>
      latch .sweepSuspended (setHeadState .suspended ((braked s).setRunner { s.runner with suspend := some r }))
    | some .halt => braked s
    | some .abort => braked s
    | none => braked s) := by
  have hstate : (if s.carriage.pos.isSome then CarState.idle else .unhomed)
      = if s.carriage.pos = none then .unhomed else .idle := by cases s.carriage.pos <;> rfl
  unfold finishBraking
  rw [hstate]
  rfl

theorem braked_atRest (s : State) : (braked s).carriage.state.atRest = true := by
  simp only [braked]
  split <;> rfl

/-- After a sweep the head phase goes on to ADVANCE. -/
theorem finishBraking_of_sweepEnd {g : Nat} (h : s.carriage.brake = some (.sweepEnd g)) :
    finishBraking s = owedHoming s none ((braked s).setRunner { s.runner with phase := .advance }) := by
  rw [finishBraking_eq, h]
  exact giveOwedHoming_eq (braked_atRest s) rfl rfl

/-- After a suspend the head entry is SUSPENDED with its reason. -/
theorem finishBraking_of_suspend {reason : SuspendReason} {g : Nat} {e : Entry} {rest : List Entry}
    (h : s.carriage.brake = some (.suspend reason g)) (hq : s.queue = e :: rest) :
    finishBraking s = owedHoming s none { braked s with
      runner := { s.runner with suspend := some reason }
      queue := { e with state := .suspended } :: rest
      events := { s.events with latched := s.events.latched ||| 0x008#12 } } := by
  rw [finishBraking_eq, h]
  dsimp only
  rw [setHeadState_cons (e := e) (rest := rest) (by exact hq)]
  exact giveOwedHoming_eq (braked_atRest s) rfl rfl

/-- After a halt or an ABORT nothing else changes. -/
theorem finishBraking_of_stop (h : s.carriage.brake = some .halt ∨ s.carriage.brake = some .abort) :
    finishBraking s = owedHoming s none (braked s) := by
  rw [finishBraking_eq]
  rcases h with h | h <;> rw [h] <;> exact giveOwedHoming_eq (braked_atRest s) rfl rfl

/-! ## BRAKE_RAMP_END -/

theorem ramping_of_ends (h : s.carriage.state = .braking ∨ s.carriage.state = .approach
    ∨ (s.carriage.state = .homing ∧ ∃ h, s.carriage.homing = some h
      ∧ (h.stage = .clearStop ∨ h.stage = .seekStop ∨ h.stage = .park))) : ramping s = true := by
  rcases h with h | h | ⟨h, x, hx, hstage⟩
  · simp [ramping, h]
  · simp [ramping, h]
  · simpa [ramping, h, hx, or_assoc] using hstage

theorem not_ramping_of_driven (h : s.carriage.state = .runup ∨ s.carriage.state = .sweep ∨ s.carriage.state = .idle
    ∨ s.carriage.state = .unhomed ∨ (s.carriage.state = .homing ∧ ∃ h, s.carriage.homing = some h
      ∧ (h.stage = .clearing ∨ h.stage = .seek))) : ramping s = false := by
  rcases h with h | h | h | h | ⟨h, x, hx, hstage⟩
  case inr.inr.inr.inr => rcases hstage with hstage | hstage <;> simp [ramping, h, hx, hstage]
  all_goals simp [ramping, h]

theorem brakeRampEnd_of_ramping (hon : s.carriage.drive = .on) (h : ramping s = true) :
    brakeRampEnd s = s.setCarriage { s.carriage with drive := .released } := if_pos ⟨hon, h⟩

theorem brakeRampEnd_of_not (h : s.carriage.drive ≠ .on ∨ ramping s = false) : brakeRampEnd s = s :=
  if_neg (by rintro ⟨hon, hramp⟩; rcases h with h | h <;> simp_all)

/-! ## REST_DETECTED -/

variable (hdrive : s.carriage.drive = .released) (hdue : s.time.stall = some 0)

include hdrive hdue

theorem restDetected_braking (hst : s.carriage.state = .braking) : restDetected s = settleTear (finishBraking s) := by
  simp [restDetected, hdrive, hdue, hst]

/-- An approach is complete at its target. -/
theorem restDetected_arrived (hst : s.carriage.state = .approach) (h : s.carriage.pos = s.carriage.target) :
    restDetected s = settleTear
      (stopStall (s.setCarriage { s.carriage with state := .idle, drive := .off, target := none })) := by
  simp [restDetected, hdrive, hdue, hst, h]

/-- An approach that rests elsewhere is repeated. -/
theorem restDetected_missed (hst : s.carriage.state = .approach) (h : s.carriage.pos ≠ s.carriage.target) :
    restDetected s = startStall (s.setCarriage { s.carriage with drive := .on }) := by
  simp [restDetected, hdrive, hdue, hst, h]

theorem restDetected_homing {x : Homing} (hst : s.carriage.state = .homing) (hx : s.carriage.homing = some x) :
    restDetected s = settleTear (homingRest x s) := by
  simp [restDetected, hdrive, hdue, hst, hx]

end

section

variable {s : State} {x : Homing}

theorem homingRest_of_parked (hstage : x.stage = .park) (hpos : s.carriage.pos = some 360) :
    homingRest x s = latch .homed
      (stopStall (s.setCarriage { s.carriage with state := .idle, drive := .off, homing := none })) := by
  simp [homingRest, hstage, hpos, Config.parkPosition]

/-- From the clearing stop to the seek, from the seek's stop to the park move, and the park move again. -/
theorem homingRest_of_next {next : HomingStage} (h : (x.stage = .clearStop ∧ next = .seek)
    ∨ (x.stage = .seekStop ∧ next = .park) ∨ (x.stage = .park ∧ s.carriage.pos ≠ some 360 ∧ next = .park)) :
    homingRest x s = homingStage x next s := by
  rcases h with ⟨hstage, rfl⟩ | ⟨hstage, rfl⟩ | ⟨hstage, hpos, rfl⟩
  · simp [homingRest, hstage]
  · simp [homingRest, hstage]
  · simp [homingRest, hstage, hpos, Config.parkPosition]

end

/-- Settles O36: the drive is released at the end of a ramp alone, and rest ends each motion by its equation. -/
theorem rampEndAndRest : Obligations.RampEndAndRest := by
  refine ⟨fun s => ⟨fun hon h => ?_, fun h => ?_⟩, fun s hdrive hdue => ?_⟩
  · exact congrArg Host.Outcome.next (brakeRampEnd_of_ramping hon (ramping_of_ends h))
  · exact congrArg Host.Outcome.next (brakeRampEnd_of_not (h.imp_right not_ramping_of_driven))
  · refine ⟨braked s, owedHoming s none, rfl, fun h => owedHoming_of_not_owed h none,
      fun h => owedHoming_of_owed h none, fun hst => ?_, fun hst => ?_, fun x hst hx => ?_⟩
    · have hbraking := restDetected_braking hdrive hdue hst
      refine ⟨fun g hk => ?_, fun reason g e rest hk hq => ?_, fun hk => ?_⟩
      · exact congrArg Host.Outcome.next (hbraking.trans (by rw [finishBraking_of_sweepEnd hk]; rfl))
      · exact congrArg Host.Outcome.next (hbraking.trans (by rw [finishBraking_of_suspend hk hq]))
      · exact congrArg Host.Outcome.next (hbraking.trans (by rw [finishBraking_of_stop hk]))
    · exact ⟨fun h => congrArg Host.Outcome.next (restDetected_arrived hdrive hdue hst h),
        fun h => congrArg Host.Outcome.next (restDetected_missed hdrive hdue hst h)⟩
    · have hhoming := restDetected_homing hdrive hdue hst hx
      refine ⟨fun hstage hpos => ?_, fun next h => ?_⟩
      · exact congrArg Host.Outcome.next (hhoming.trans (by rw [homingRest_of_parked hstage hpos]; rfl))
      · exact congrArg Host.Outcome.next (hhoming.trans (by rw [homingRest_of_next h]; rfl))

end Sys2Proof.Machine
end

section
/-! Encoder edges: what each brings about beside the run-up's end and the matches of a sweep. -/

namespace Sys2Proof.Machine

/-! ## An edge, by the position it finds -/

/-- The state in which an edge of a channel is counted: the channel's level turned, and the timer of a drive that is on or
released started afresh. -/
def edged (ch : Quad) (s : State) : State :=
  { s with
    pins := (turnQuad ch s).pins
    time := { s.time with stall := if s.carriage.drive = .off then s.time.stall else some 20 } }

theorem edged_eq (ch : Quad) (s : State) : edged ch s =
    if s.carriage.drive = .off then s.setPins (turnQuad ch s).pins else startStall (s.setPins (turnQuad ch s).pins) := by
  unfold edged
  split <;> rfl

theorem edged_off {ch : Quad} {s : State} (h : s.carriage.drive = .off) :
    edged ch s = s.setPins (turnQuad ch s).pins := (edged_eq ch s).trans (if_pos h)

theorem edged_on {ch : Quad} {s : State} (h : s.carriage.drive ≠ .off) :
    edged ch s = startStall (s.setPins (turnQuad ch s).pins) := (edged_eq ch s).trans (if_neg h)

/-- The state in which an edge beyond a limit of the travel is taken: the position is lost. -/
def misplaced (ch : Quad) (s : State) : State := (edged ch s).setCarriage { s.carriage with pos := none }

/-- An edge leaves the homing owed and the home sensor as they are. -/
theorem owedHoming_edged (ch : Quad) (s : State) (place : Option Nat) (u : State) :
    owedHoming (edged ch s) place u = owedHoming s place u := by cases ch <;> rfl

section

variable {ch : Quad} {dir : Dir} {s : State} {p q : Nat}

theorem countEdge_eq (ch : Quad) (dir : Dir) (s : State) : countEdge dir (turnQuad ch s) =
    settleTear (match s.carriage.pos with
      | none => edgeUnplaced dir (edged ch s)
      | some p =>
        match moveCount dir p with
        | none => crossLimit (limitOf dir) (edged ch s)
        | some q => edgeAt dir q ((edged ch s).setCarriage { s.carriage with pos := some q })) := by
  have hstart : (if (turnQuad ch s).carriage.drive = .off then turnQuad ch s else startStall (turnQuad ch s))
      = edged ch s := by rw [edged_eq, ← turnQuad_frame, (turnQuad_setPins ch s).1]
  simp only [countEdge, hstart]
  rfl

variable (hdir : edgeDir ch s = dir)

include hdir

theorem encoderEdge_of_unplaced (hp : s.carriage.pos = none) :
    encoderEdge ch s = settleTear (edgeUnplaced dir (edged ch s)) := by
  rw [encoderEdge, hdir, countEdge_eq, hp]

/-- An edge within the travel moves P by one count. -/
theorem encoderEdge_of_moved (hp : s.carriage.pos = some p) (hq : (dir = .fwd ∧ q = p + 1) ∨ (dir = .rev ∧ p = q + 1))
    (hle : q ≤ 21599) : encoderEdge ch s =
      settleTear (edgeAt dir q ((edged ch s).setCarriage { s.carriage with pos := some q })) := by
  rw [encoderEdge, hdir, countEdge_eq, hp]
  simp only [moveCount_of_le hq hle]

/-- An edge outward at an end of the travel crosses the limit. -/
theorem encoderEdge_of_limit (h : (dir = .fwd ∧ s.carriage.pos = some 21599) ∨ (dir = .rev ∧ s.carriage.pos = some 0)) :
    encoderEdge ch s = settleTear (crossLimit (limitOf dir) (edged ch s)) := by
  rw [encoderEdge, hdir, countEdge_eq]
  rcases h with ⟨rfl, hp⟩ | ⟨rfl, hp⟩ <;> rw [hp] <;> rfl

end

/-! ## An edge that matches nothing -/

section

variable {dir : Dir} {s : State} {q : Nat}

theorem edgeAt_elsewhere (h : s.carriage.state ≠ .runup) (h' : s.carriage.state ≠ .sweep) : edgeAt dir q s = s := by
  unfold edgeAt
  split <;> simp_all

theorem edgeAt_runup {pl : Plan} (hst : s.carriage.state = .runup) (hpl : s.carriage.plan = some pl) :
    edgeAt dir q s = if firstFiring pl.dir pl.listA pl.listB = some (q : Int) then endRunUp q s else s := by
  simp only [edgeAt, hst, hpl]

theorem edgeUnplaced_elsewhere (h : s.carriage.state ≠ .homing) : edgeUnplaced dir s = s := by
  unfold edgeUnplaced
  split <;> simp_all

theorem edgeUnplaced_clearStop {x : Homing} (hx : s.carriage.homing = some x) (hstage : x.stage = .clearStop) :
    edgeUnplaced dir s = s := by
  unfold edgeUnplaced
  split <;> simp_all

/-! ## A limit crossed without drive -/

variable {n : Nat}

theorem crossLimit_stall (h : s.carriage.state = .homing ∨ s.carriage.drive = .on) :
    crossLimit n s = stall (some n) s := if_pos h

theorem crossLimit_idle (hst : s.carriage.state = .idle) (hoff : s.carriage.drive = .off) : crossLimit n s =
    s.setCarriage { s.carriage with pos := none, state := .unhomed } := by
  simp [crossLimit, hst, hoff]

theorem crossLimit_braking (hst : s.carriage.state = .braking) (hdrive : s.carriage.drive = .released) :
    crossLimit n s = finishBraking (s.setCarriage { s.carriage with pos := none }) := by
  simp [crossLimit, hst, hdrive]

/-- The plan of an approach that is given up: the look-ahead one when there is one. -/
theorem dropApproached_eq (s : State) : dropApproached s = s.setRunner
    (if s.runner.lookAhead = none then { s.runner with headPlan := none } else { s.runner with lookAhead := none }) := by
  unfold dropApproached
  rcases s.runner.lookAhead with _ | p <;> rfl

/-- The carriage at the rest that ends an approach beyond a limit of the travel. -/
def strayed (s : State) : State :=
  { s with
    carriage := { s.carriage with pos := none, state := .unhomed, drive := .off, target := none }
    time := { s.time with stall := none }
    runner :=
      if s.runner.lookAhead = none then { s.runner with headPlan := none } else { s.runner with lookAhead := none } }

theorem crossLimit_approach (hst : s.carriage.state = .approach) (hdrive : s.carriage.drive = .released) :
    crossLimit n s = owedHoming s none (strayed s) := by
  have howed : (strayed s).runner.homingOwed = s.runner.homingOwed := by
    simp only [strayed]
    split <;> rfl
  refine Eq.trans ?_ (giveOwedHoming_eq rfl howed rfl)
  simp only [crossLimit, hst, hdrive, dropApproached_eq]
  rfl

end

/-- Settles O34: the direction by the levels the edge finds, then one equation for each state of the carriage. -/
theorem encoderEdgeFollowed : Obligations.EncoderEdgeFollowed := by
  refine ⟨fun s => ⟨fun hk => ?_, fun hk => ?_, edgeDir_encB s, fun q other => ⟨?_, (edgeDir_turnQuad q other s).2, ?_⟩⟩,
    fun ch dir s u hdir hu => ?_⟩
  · simp [edgeDir_encA, hk]
  · simp [edgeDir_encA, hk]
  · cases q <;> rfl
  · exact fun h => (edgeDir_turnQuad q q s).1 h rfl
  obtain rfl : u = s.setPins (turnQuad ch s).pins := hu.trans (turnQuad_frame ch s)
  refine ⟨fun p q hp hq hle hst => ?_, fun hst hoff hp => ?_, fun hp hdrive hst => ?_, fun hlimit => ?_⟩
  · refine congrArg Host.Outcome.next ((encoderEdge_of_moved hdir hp hq hle).trans (congrArg settleTear ?_))
    rcases hst with hst | hst | hst | hst | ⟨hst, pl, hpl, hfirst⟩
    case inr.inr.inr.inr =>
      exact (edgeAt_runup (s := (edged ch s).setCarriage { s.carriage with pos := some q }) hst hpl).trans
        (if_neg hfirst)
    all_goals exact edgeAt_elsewhere (by simp [hst]) (by simp [hst])
  · refine congrArg Host.Outcome.next ((encoderEdge_of_unplaced hdir hp).trans (congrArg settleTear ?_))
    rw [edged_off hoff]
    exact edgeUnplaced_elsewhere (by simp [hst])
  · refine congrArg Host.Outcome.next ((encoderEdge_of_unplaced hdir hp).trans (congrArg settleTear ?_))
    rw [edged_on hdrive]
    rcases hst with hst | ⟨-, x, hx, hstage⟩
    · exact edgeUnplaced_elsewhere (by simp [hst])
    · exact edgeUnplaced_clearStop (x := x) (by simp [hx]) hstage
  · have hcross := encoderEdge_of_limit hdir hlimit
    refine ⟨fun v => owedHoming s v.carriage.pos v, fun h v => owedHoming_of_not_owed h _ v,
      fun h v => owedHoming_of_owed h _ v, fun hst hoff => ?_, fun hst hdrive => ?_, fun hst hdrive => ?_⟩
    · refine congrArg Host.Outcome.next (hcross.trans (congrArg settleTear ?_))
      rw [edged_off hoff]
      exact crossLimit_idle hst hoff
    · refine congrArg Host.Outcome.next (hcross.trans (congrArg settleTear ?_))
      exact (crossLimit_approach (s := edged ch s) hst hdrive).trans (owedHoming_edged ch s none _)
    · have hrest := hcross.trans (congrArg settleTear (crossLimit_braking (s := edged ch s) hst hdrive))
      refine ⟨braked (misplaced ch s), rfl, fun g hk => ?_, fun reason g e rest hk hq => ?_, fun hk => ?_⟩ <;>
        refine congrArg Host.Outcome.next (hrest.trans (congrArg settleTear ?_))
      · exact (finishBraking_of_sweepEnd (s := misplaced ch s) hk).trans (owedHoming_edged ch s none _)
      · exact (finishBraking_of_suspend (s := misplaced ch s) hk hq).trans (owedHoming_edged ch s none _)
      · exact (finishBraking_of_stop (s := misplaced ch s) hk).trans (owedHoming_edged ch s none _)

end Sys2Proof.Machine
end

section
/-! A stall: what it leaves of each block, whether the stall timer raised it, a limit of the travel, or homing's bounds. -/

namespace Sys2Proof.Machine

/-! ## Resume columns due -/

section

variable {s : State}

theorem flushResume_kept (h : s.carriage.resumeDue = none ∨ s.driver.running ≠ none) : flushResume s = s := by
  rcases hr : s.driver.running with _ | r
  · exact flushResume_of_none (h.resolve_right (· hr))
  · exact flushResume_of_running hr

/-- The resume columns stay due while a burst runs. -/
theorem flushResume_carriage (s : State) : (flushResume s).carriage =
    { s.carriage with resumeDue := if s.driver.running = none then none else s.carriage.resumeDue } := by
  rcases hr : s.driver.running with _ | r
  · rcases hd : s.carriage.resumeDue with _ | d
    · rw [flushResume_of_none hd, if_pos rfl, ← hd]
    · rw [flushResume_of_due hd hr, if_pos rfl]; rfl
  · rw [flushResume_of_running hr, if_neg nofun]

/-- The lists whose resume columns a stall leaves to be written: those of the sweep it stops, else those already due. -/
def stallDue (s : State) : Option ResumeDue :=
  if s.carriage.state = .sweep then planLists s else s.carriage.resumeDue

/-- The position lost and the drive off, with the resume columns still due. -/
def placeLost (s : State) : State :=
  stopStall ((dropPending s).setCarriage { Carriage.reset with resumeDue := stallDue s })

theorem carriageLost_eq (s : State) : carriageLost s = flushResume (placeLost s) := rfl

theorem carriageLost_carriage (s : State) : (carriageLost s).carriage =
    { Carriage.reset with resumeDue := if s.driver.running = none then none else stallDue s } :=
  flushResume_carriage _

theorem resumeLeft_kept (h : stallDue s = none ∨ s.driver.running ≠ none) :
    (if s.driver.running = none then none else stallDue s) = stallDue s := by
  rcases h with h | h
  · rw [h, ite_self]
  · rw [if_neg h]

theorem carriageLost_driver (s : State) : (carriageLost s).driver = { s.driver with pendA := none, pendB := none } := by
  simp [carriageLost, dropPending]

theorem carriageLost_time (s : State) : (carriageLost s).time = { s.time with stall := none } := by
  simp [carriageLost, dropPending, stopStall]

theorem carriageLost_queue_kept (h : stallDue s = none ∨ s.driver.running ≠ none) : (carriageLost s).queue = s.queue := by
  rw [carriageLost_eq, flushResume_kept (s := placeLost s) h]
  rfl

theorem carriageLost_queue_nil (h : s.queue = []) : (carriageLost s).queue = [] := by
  rw [carriageLost_eq]
  unfold flushResume
  split
  · rw [mapHeadPass, mapHead_nil (s := placeLost s) h]; exact h
  · exact h

theorem carriageLost_queue_written {d : ResumeDue} {e : Entry} {rest : List Entry} (hd : stallDue s = some d)
    (hr : s.driver.running = none) (hq : s.queue = e :: rest) : (carriageLost s).queue =
      { e with
        pass := e.pass.map fun p => { p with
          resumeA := some (resumeOf s.pool p .a d.listA)
          resumeB := some (resumeOf s.pool p .b d.listB) } } :: rest :=
  congrArg State.queue (flushResume_cons (s := placeLost s) hd hr hq)

end

/-! ## The stall but for the homing owed -/

/-- The runner once the plan of an approach is dropped, the look-ahead one when there is one (spec/03 R56). -/
def stallRunner (s : State) : Runner :=
  if s.carriage.state = .approach then
    if s.runner.lookAhead = none then { s.runner with headPlan := none } else { s.runner with lookAhead := none }
  else s.runner

theorem stallRunner_of_lookAhead {s : State} {p : Plan} (hst : s.carriage.state = .approach)
    (h : s.runner.lookAhead = some p) : stallRunner s = { s.runner with lookAhead := none } := by
  simp [stallRunner, hst, h]

theorem stallRunner_of_head {s : State} (hst : s.carriage.state = .approach) (h : s.runner.lookAhead = none) :
    stallRunner s = { s.runner with headPlan := none } := by
  simp [stallRunner, hst, h]

/-- The stall before its fault is raised: the drive is off, and the head entry of a sweep is HALTED. -/
def stopped (s : State) : State :=
  if stallHalts s then setHeadState .halted (carriageLost (s.setRunner (stallRunner s)))
  else carriageLost (s.setRunner (stallRunner s))

/-- The stall but for the homing owed. -/
def stalled (place : Option Nat) (s : State) : State :=
  raiseFault (if s.carriage.state = .homing then .homeFail else .stall) (stallTag s) place (stopped s)

theorem stall_eq (place : Option Nat) (s : State) : stall place s = giveOwedHoming (stalled place s) := by
  have hdrop : (if s.carriage.state = .approach then dropApproached s else s) = s.setRunner (stallRunner s) := by
    simp only [dropApproached_eq, stallRunner]
    split <;> rfl
  simp only [stall, hdrop]
  rfl

section

variable {s : State}

@[simp] theorem stallRunner_frame (s : State) : (stallRunner s).phase = s.runner.phase
    ∧ (stallRunner s).pause = s.runner.pause ∧ (stallRunner s).fault = s.runner.fault
    ∧ (stallRunner s).homingOwed = s.runner.homingOwed := by
  unfold stallRunner
  (repeat' split) <;> simp

@[simp] theorem stopped_frame (s : State) :
    (stopped s).link = s.link ∧ (stopped s).mech = s.mech ∧ (stopped s).pool = s.pool ∧
    (stopped s).runner = stallRunner s ∧ (stopped s).heat = s.heat ∧ (stopped s).paper = s.paper ∧
    (stopped s).forms = s.forms ∧ (stopped s).events = s.events ∧ (stopped s).pins = s.pins := by
  unfold stopped
  split <;> simp

theorem stopped_carriage (s : State) : (stopped s).carriage =
    { Carriage.reset with resumeDue := if s.driver.running = none then none else stallDue s } := by
  unfold stopped
  split
  · exact ((setHeadState_frame _ _).2.2.2.2.1).trans (carriageLost_carriage _)
  · exact carriageLost_carriage _

theorem stopped_driver (s : State) : (stopped s).driver = { s.driver with pendA := none, pendB := none } := by
  unfold stopped
  split <;> simp [carriageLost_driver]

theorem stopped_time (s : State) : (stopped s).time = { s.time with stall := none } := by
  unfold stopped
  split <;> simp [carriageLost_time]

theorem stopped_queue_nil (h : s.queue = []) : (stopped s).queue = [] := by
  have hlost : (carriageLost (s.setRunner (stallRunner s))).queue = [] := carriageLost_queue_nil h
  unfold stopped
  split
  · rw [setHeadState, mapHead_nil hlost, hlost]
  · exact hlost

theorem stopped_queue_cons {e : Entry} {rest : List Entry}
    (h : (carriageLost (s.setRunner (stallRunner s))).queue = e :: rest) :
    (stopped s).queue = { e with state := if stallHalts s then .halted else e.state } :: rest := by
  unfold stopped
  split
  · rw [setHeadState_cons h]; rfl
  · exact h

theorem raiseFault_runner (code : FaultCode) (tag : Option Byte) (pos : Option Nat) (s : State) :
    (raiseFault code tag pos s).runner = { s.runner with
      fault := if s.runner.fault = none then some { code := code, tag := tag, pos := pos } else s.runner.fault } := by
  rw [raiseFault_eq]
  rcases h : s.runner.fault <;> simp

theorem raiseFault_events (code : FaultCode) (tag : Option Byte) (pos : Option Nat) (s : State) :
    (raiseFault code tag pos s).events = { s.events with latched := s.events.latched ||| 0x020#12 } := by
  rw [raiseFault_eq]
  exact (stopPaper_frame _ _).2.2.2.2.2.2.2.2.2.1

@[simp] theorem stalled_frame (place : Option Nat) (s : State) :
    (stalled place s).link = s.link ∧ (stalled place s).mech = s.mech ∧ (stalled place s).pool = s.pool ∧
    (stalled place s).heat = s.heat ∧ (stalled place s).forms = s.forms ∧ (stalled place s).pins = s.pins := by
  simp [stalled]

theorem stalled_carriage (place : Option Nat) (s : State) : (stalled place s).carriage =
    { Carriage.reset with resumeDue := if s.driver.running = none then none else stallDue s } := by
  simp [stalled, stopped_carriage]

theorem stalled_driver (place : Option Nat) (s : State) :
    (stalled place s).driver = { s.driver with pendA := none, pendB := none } := by simp [stalled, stopped_driver]

theorem stalled_events (place : Option Nat) (s : State) :
    (stalled place s).events = { s.events with latched := s.events.latched ||| 0x020#12 } := by
  simp [stalled, raiseFault_events]

theorem stalled_queue (place : Option Nat) (s : State) : (stalled place s).queue = (stopped s).queue := by
  simp [stalled]

theorem stalled_queue_nil (place : Option Nat) (h : s.queue = []) : (stalled place s).queue = [] :=
  (stalled_queue place s).trans (stopped_queue_nil h)

theorem stalled_queue_kept {e : Entry} {rest : List Entry} (place : Option Nat)
    (h : stallDue s = none ∨ s.driver.running ≠ none) (hq : s.queue = e :: rest) :
    (stalled place s).queue = { e with state := if stallHalts s then .halted else e.state } :: rest :=
  (stalled_queue place s).trans
    (stopped_queue_cons ((carriageLost_queue_kept (s := s.setRunner (stallRunner s)) h).trans hq))

theorem stalled_queue_written {d : ResumeDue} {e : Entry} {rest : List Entry} (place : Option Nat)
    (hd : stallDue s = some d) (hr : s.driver.running = none) (hq : s.queue = e :: rest) :
    (stalled place s).queue =
      { e with
        state := if stallHalts s then .halted else e.state
        pass := e.pass.map fun p => { p with
          resumeA := some (resumeOf s.pool p .a d.listA)
          resumeB := some (resumeOf s.pool p .b d.listB) } } :: rest :=
  (stalled_queue place s).trans
    (stopped_queue_cons (carriageLost_queue_written (s := s.setRunner (stallRunner s)) hd hr hq))

theorem stopPaper_paper {u v : State} (h : u.paper = v.paper) (c : StopCause) :
    (stopPaper c u).paper = (stopPaper c v).paper := by
  unfold stopPaper
  rw [h]
  split <;> simp [h]

theorem stalled_paper (place : Option Nat) (s : State) : (stalled place s).paper = (stopPaper .fault s).paper := by
  simp only [stalled, raiseFault_eq]
  exact stopPaper_paper (by simp) _

theorem stalled_runner (place : Option Nat) (s : State) : (stalled place s).runner = { stallRunner s with
    fault := if s.runner.fault = none then
        some { code := if s.carriage.state = .homing then .homeFail else .stall, tag := stallTag s, pos := place }
      else s.runner.fault } := by
  simp [stalled, raiseFault_runner]

theorem stalled_fault (place : Option Nat) (s : State) : (stalled place s).runner.fault =
    if s.runner.fault = none then
      some { code := if s.carriage.state = .homing then .homeFail else .stall, tag := stallTag s, pos := place }
    else s.runner.fault := by rw [stalled_runner]

theorem stalled_plans_of_lookAhead {p : Plan} (place : Option Nat) (hst : s.carriage.state = .approach)
    (h : s.runner.lookAhead = some p) :
    (stalled place s).runner.lookAhead = none ∧ (stalled place s).runner.headPlan = s.runner.headPlan := by
  simp [stalled_runner, stallRunner_of_lookAhead hst h]

theorem stalled_headPlan_of_head (place : Option Nat) (hst : s.carriage.state = .approach)
    (h : s.runner.lookAhead = none) : (stalled place s).runner.headPlan = none := by
  simp [stalled_runner, stallRunner_of_head hst h]

/-- A stall leaves a fault latched, so that the tear timer stops; the homing owed is given at once. -/
theorem settleTear_stall (place : Option Nat) (s : State) : settleTear (stall place s) =
    owedHoming s none ((stalled place s).setTime { s.time with stall := none, tearIdle := none }) := by
  have hrest : carriageAtRest (stalled place s) = true := by
    simp [carriageAtRest, stalled, stopped_carriage, Carriage.reset, CarState.atRest]
  have htime : (stalled place s).time = { s.time with stall := none } := by simp [stalled, stopped_time]
  have hlatched : (stalled place s).runner.fault ≠ none := by
    rw [stalled_fault]
    split <;> simp_all
  rw [stall_eq, giveOwedHoming_eq (s := s) hrest (by simp [stalled, raiseFault_runner]) (by simp [stalled]),
    settleTear_of_not (tearReady_of_fault _)]
  · unfold owedHoming
    split
    · simp only [htime]
      rfl
    · simp only [htime]
  · unfold owedHoming
    split <;> exact hlatched

/-- The tag of a stall, by what the carriage does. -/
theorem stallTag_eq (s : State) : stallTag s =
    match s.carriage.state with
    | .homing => if s.carriage.homing.map Homing.source = some .host then none else headTag s
    | .approach => (s.runner.lookAhead.map Plan.tag).or (headTag s)
    | .braking => if s.carriage.brake = some .abort then none else headTag s
    | _ => headTag s := by
  unfold stallTag
  rcases hst : s.carriage.state <;> dsimp only
  case homing => rcases s.carriage.homing with _ | h <;> simp
  case approach => rcases s.runner.lookAhead with _ | p <;> rfl

theorem stallHalts_iff (s : State) : stallHalts s = true ↔ s.carriage.state = .runup ∨ s.carriage.state = .sweep
    ∨ (s.carriage.state = .braking ∧ s.carriage.brake ≠ some .abort) := by
  unfold stallHalts
  split <;> simp_all

end

/-! ## What brings a stall about -/

/-- The pins after a command that may stall: an encoder edge turns its channel's level. -/
def edgePins (c : Instr) (s : State) : Pins :=
  match c with
  | .encoderEdge .encA => { s.pins with encA := !s.pins.encA }
  | .encoderEdge .encB => { s.pins with encB := !s.pins.encB }
  | _ => s.pins

theorem edgePins_edge (q : Quad) (s : State) : edgePins (.encoderEdge q) s = (turnQuad q s).pins := by cases q <;> rfl

theorem edgePins_homeCovered (c : Instr) (s : State) : (edgePins c s).homeCovered = s.pins.homeCovered := by
  unfold edgePins
  split <;> rfl

/-- The stall timer due under drive, or an edge beyond a limit of the travel under drive or in HOMING. -/
def Stalls (c : Instr) (place : Option Nat) (s : State) : Prop :=
  (c = .stallTimerExpiry ∧ s.carriage.drive = .on ∧ s.time.stall = some 0
      ∧ place = (if s.carriage.state = .homing then none else s.carriage.pos))
    ∨ ((∃ q, c = .encoderEdge q ∧ edgeDir q s = .fwd) ∧ (s.carriage.drive = .on ∨ s.carriage.state = .homing)
      ∧ s.carriage.pos = some 21599 ∧ place = some 21599)
    ∨ ((∃ q, c = .encoderEdge q ∧ edgeDir q s = .rev) ∧ (s.carriage.drive = .on ∨ s.carriage.state = .homing)
      ∧ s.carriage.pos = some 0 ∧ place = some 0)

/-- The state in which a command finds the carriage stalled: an edge has turned its channel's level and may have started
the stall timer afresh. -/
def stallSite (c : Instr) (timer : Option Nat) (s : State) : State :=
  { s with pins := edgePins c s, time := { s.time with stall := timer } }

theorem Stalls.exec {c : Instr} {place : Option Nat} {s : State} (h : Stalls c place s) :
    ∃ timer, Machine.exec c s = .next (settleTear (stall place (stallSite c timer s))) := by
  rcases h with ⟨rfl, hon, hdue, rfl⟩ | ⟨⟨q, rfl, hdir⟩, hmove, hpos, rfl⟩ | ⟨⟨q, rfl, hdir⟩, hmove, hpos, rfl⟩
  · exact ⟨s.time.stall, congrArg Host.Outcome.next (if_pos ⟨hon, hdue⟩)⟩
  · unfold stallSite
    rw [edgePins_edge]
    exact ⟨_, congrArg Host.Outcome.next ((encoderEdge_of_limit hdir (.inl ⟨rfl, hpos⟩)).trans (congrArg settleTear
      (crossLimit_stall (s := edged q s) hmove.symm)))⟩
  · unfold stallSite
    rw [edgePins_edge]
    exact ⟨_, congrArg Host.Outcome.next ((encoderEdge_of_limit hdir (.inr ⟨rfl, hpos⟩)).trans (congrArg settleTear
      (crossLimit_stall (s := edged q s) hmove.symm)))⟩

theorem owedHoming_stallSite (c : Instr) (timer : Option Nat) (s : State) (place : Option Nat) (u : State) :
    owedHoming (stallSite c timer s) place u = owedHoming s place u := by
  simp only [owedHoming, stallSite, edgePins_homeCovered]

/-- A homing that is owed leaves the position as it finds it when that is lost already. -/
theorem owedHoming_of_owed_unplaced {s u : State} (howed : s.runner.homingOwed = true) (hpos : u.carriage.pos = none) :
    owedHoming s none u =
      { u with
        carriage :=
          { u.carriage with
            state := .homing, drive := .on
            homing := some
              { source := .clearFault, stage := if s.pins.homeCovered then .clearing else .seek, travel := 0 } }
        runner := { u.runner with homingOwed := false }
        time := { u.time with stall := some 20 } } := by
  rw [owedHoming_of_owed howed, ← hpos]

/-- Settles O33: the stall's state is `stalled` with the tear timer stopped, and the homing owed follows it. -/
theorem stallLosesPosition : Obligations.StallLosesPosition := by
  refine ⟨resumeOf, fun pool p ch l => ⟨resumeOf_done, ?_⟩, fun c place s due hdue h => ?_⟩
  · rintro before x after rfl hbefore hx
    exact resumeOf_first hbefore hx
  obtain rfl : due = stallDue s := hdue
  obtain ⟨timer, hexec⟩ := Stalls.exec (c := c) (place := place) h
  rw [settleTear_stall, owedHoming_stallSite] at hexec
  have hcar := stalled_carriage place (stallSite c timer s)
  have hrun := stalled_runner place (stallSite c timer s)
  have hpaper := stalled_paper place (stallSite c timer s)
  obtain ⟨hphase, hpause, -, -⟩ := stallRunner_frame (stallSite c timer s)
  obtain ⟨hlink, hmech, hpool, hheat, hforms, hpins⟩ := stalled_frame place (stallSite c timer s)
  refine ⟨(stalled place (stallSite c timer s)).setTime { s.time with stall := none, tearIdle := none },
    stallHalts (stallSite c timer s), fun howed => ?_, fun howed => ?_, congrArg Carriage.state hcar,
    congrArg Carriage.pos hcar, congrArg Carriage.drive hcar, congrArg Carriage.plan hcar, congrArg Carriage.homing hcar,
    congrArg Carriage.target hcar, congrArg Carriage.brake hcar, congrArg (fun x => x.chanA.list) hcar,
    congrArg (fun x => x.chanB.list) hcar, stalled_driver _ _, ?_, stalled_events _ _, stallHalts_iff _,
    stalled_queue_nil (s := stallSite c timer s) place,
    fun hkept => ⟨?_, fun e rest => stalled_queue_kept (s := stallSite c timer s) place hkept⟩,
    fun d hd hr => ⟨?_, fun e rest => stalled_queue_written (s := stallSite c timer s) place hd hr⟩,
    fun hst p => stalled_plans_of_lookAhead (s := stallSite c timer s) place hst,
    stalled_headPlan_of_head (s := stallSite c timer s) place, fun hm => ?_, fun m hm hs => ?_, rfl,
    (congrArg Runner.phase hrun).trans hphase, (congrArg Runner.pause hrun).trans hpause, hpool, hheat, hforms, hmech,
    hlink, hpins⟩
  · exact hexec.trans (congrArg Host.Outcome.next (owedHoming_of_not_owed howed _ _))
  · exact hexec.trans (congrArg Host.Outcome.next (owedHoming_of_owed_unplaced howed (congrArg Carriage.pos hcar)))
  · exact (stalled_fault _ _).trans (by rw [stallTag_eq]; rfl)
  · exact (congrArg Carriage.resumeDue hcar).trans (resumeLeft_kept hkept)
  · exact (congrArg Carriage.resumeDue hcar).trans (if_pos hr)
  · exact (hpaper.trans (congrArg State.paper (stopPaper_none (s := stallSite c timer s) hm))).trans rfl
  · exact hpaper.trans (congrArg State.paper (stopPaper_going (s := stallSite c timer s) hm hs))

end Sys2Proof.Machine
end

section
/-! Homing: what the home sensor ends, and the travel its moves count. -/

namespace Sys2Proof.Machine

/-! ## The home sensor -/

section

variable {covered : Bool} {s : State} {h : Homing}

/-- A change of the home sensor reaches the carriage and the pin alone. -/
theorem homeSensorChange_change (hpin : s.pins.homeCovered = !covered) : homeSensorChange covered s =
    { s with
      pins := { s.pins with homeCovered := covered }
      carriage := (homeSensorChange covered s).carriage } := by
  have hne : s.pins.homeCovered ≠ covered := by simp [hpin]
  unfold homeSensorChange
  rw [if_neg hne]
  dsimp only
  split
  · split <;> rfl
  · rfl

theorem homeSensorChange_clearing (hpin : s.pins.homeCovered = true) (hst : s.carriage.state = .homing)
    (hx : s.carriage.homing = some h) (hstage : h.stage = .clearing) :
    (homeSensorChange false s).carriage = { s.carriage with homing := some { h with stage := .clearStop } } := by
  simp [homeSensorChange, hpin, hst, hx, hstage]

theorem homeSensorChange_seek (hpin : s.pins.homeCovered = false) (hst : s.carriage.state = .homing)
    (hx : s.carriage.homing = some h) (hstage : h.stage = .seek) : (homeSensorChange true s).carriage =
      { s.carriage with pos := some 120, homing := some { h with stage := .seekStop } } := by
  simp [homeSensorChange, hpin, hst, hx, hstage, Config.homePosition]

theorem homeSensorChange_kept (hx : s.carriage.homing = some h) (hclear : h.stage ≠ .clearing ∨ covered = true)
    (hseek : h.stage ≠ .seek ∨ covered = false) : (homeSensorChange covered s).carriage = s.carriage := by
  unfold homeSensorChange
  split
  · rfl
  · dsimp only
    split
    · split <;> simp_all
    · rfl

theorem homeSensorChange_elsewhere (hst : s.carriage.state ≠ .homing) :
    (homeSensorChange covered s).carriage = s.carriage := by
  unfold homeSensorChange
  split
  · rfl
  · dsimp only
    split
    · exact absurd ‹_› hst
    · rfl

end

/-! ## Counted travel -/

/-- The homing with the travel counted up to `n`. -/
def travelled (h : Homing) (n : Int) (s : State) : State :=
  s.setCarriage { s.carriage with homing := some { h with travel := n } }

section

variable {dir : Dir} {s : State} {h : Homing} {n limit : Int}

/-- The clearing move counts rightward edges up to 720, the seek leftward ones up to 23040 (spec/03 R50, R51). -/
theorem edgeUnplaced_counted (hst : s.carriage.state = .homing) (hx : s.carriage.homing = some h)
    (hmove : (h.stage = .clearing ∧ limit = 720 ∧ n = h.travel + (if dir = .fwd then 1 else -1))
      ∨ (h.stage = .seek ∧ limit = 23040 ∧ n = h.travel + (if dir = .rev then 1 else -1))) :
    edgeUnplaced dir s = if limit ≤ n then stall none (travelled h n s) else travelled h n s := by
  rcases hmove with ⟨hstage, rfl, rfl⟩ | ⟨hstage, rfl, rfl⟩ <;> simp only [edgeUnplaced, hst, hx, hstage, travelled,
    countOf, Config.clearLimit, Config.seekLimit]

theorem stallTag_homing (hst : s.carriage.state = .homing) (hx : s.carriage.homing = some h) :
    stallTag s = if h.source = .host then none else headTag s := by
  simp [stallTag_eq, hst, hx]

end

/-- Settles O35: the sensor by the stage it finds, then the counted edges. -/
theorem homingSensorAndTravel : Obligations.HomingSensorAndTravel := by
  refine ⟨fun covered s hpin => ⟨homeSensorChange covered s, rfl, homeSensorChange_change hpin, ?_, ?_, ?_, ?_⟩,
    fun ch dir s h n limit hdir hst hp hon hx hmove => ?_⟩
  · rintro h hst hx hstage rfl
    exact homeSensorChange_clearing hpin hst hx hstage
  · rintro h hst hx hstage rfl
    exact homeSensorChange_seek hpin hst hx hstage
  · exact fun h hx => homeSensorChange_kept hx
  · exact homeSensorChange_elsewhere
  · have hdrive : s.carriage.drive ≠ .off := by simp [hon]
    have hedge := (encoderEdge_of_unplaced hdir hp).trans
      (congrArg settleTear (edgeUnplaced_counted (s := edged ch s) hst hx hmove))
    refine ⟨fun hlt => ?_, fun hle howed hfault => ?_⟩
    · rw [if_neg (Int.not_le.mpr hlt), edged_on hdrive] at hedge
      cases ch <;> exact congrArg Host.Outcome.next hedge
    · rw [if_pos hle, settleTear_stall, owedHoming_of_not_owed (s := travelled h n (edged ch s)) howed] at hedge
      refine ⟨_, congrArg Host.Outcome.next hedge, ?_, ?_, ?_, ?_⟩
      · exact congrArg Carriage.state (stalled_carriage _ _)
      · exact congrArg Carriage.drive (stalled_carriage _ _)
      · exact congrArg Events.latched (stalled_events _ _)
      · refine (stalled_fault _ _).trans ((if_pos hfault).trans ?_)
        rw [if_pos (show (travelled h n (edged ch s)).carriage.state = .homing from hst),
          stallTag_homing (s := travelled h n (edged ch s)) hst rfl]
        rfl

end Sys2Proof.Machine
end

section
/-! Matches: the rows a channel owes a column, the burst they form, and the edges that match. -/

namespace Sys2Proof.Machine

/-! ## Outstanding rows and their groups -/

/-- Channel A has the even rows, channel B the odd ones. -/
theorem Chan.rows_getLsbD (ch : Chan) {r : Nat} (hr : r < 24) :
    ch.rows.getLsbD r = true ↔ r % 2 = (match ch with | .a => 0 | .b => 1) := by
  have hall : ∀ r < 24, Chan.a.rows.getLsbD r = decide (r % 2 = 0) ∧ Chan.b.rows.getLsbD r = decide (r % 2 = 1) := by
    decide
  cases ch
  · rw [(hall r hr).1, decide_eq_true_iff]
  · rw [(hall r hr).2, decide_eq_true_iff]

/-- A row of a column bears an outstanding dot only where the column's slot holds a block. -/
theorem passColumn_left_getLsbD {pool : Pool} {p : Pass} {c r : Nat} {sup : Rows} :
    ((passColumn pool p c).left sup).getLsbD r = true ↔ ∃ block col, p.slots.getD (c / 64) none = some block
      ∧ col = pool.read (64 * block + c % 64) ∧ col.dots.getLsbD r = true ∧ sup.getLsbD r = false
      ∧ col.fired.getLsbD r = false ∧ col.lost.getLsbD r = false := by
  rw [Column.left_getLsbD, passColumn_slot]
  rcases p.slots.getD (c / 64) none with _ | block
  · simp [Column.blank]
  · simp [Nat.mul_comm block 64]

theorem pairsOf_pairwise (pinMap : List Nat) (rows : Rows) :
    (pairsOf pinMap rows).Pairwise (fun x y => x.1 < y.1) :=
  List.pairwise_map.2 (List.pairwise_lt_range.filter _)

theorem mem_pairsOf {pinMap : List Nat} {rows : Rows} {r o : Nat} :
    (r, o) ∈ pairsOf pinMap rows ↔ r < 24 ∧ rows.getLsbD r = true ∧ o = pinMap.getD r 0 := by
  simp only [pairsOf, rowList, List.mem_map, List.mem_filter, List.mem_range, Prod.mk.injEq]
  constructor
  · rintro ⟨x, ⟨hx, hrow⟩, rfl, rfl⟩
    exact ⟨hx, hrow, rfl⟩
  · rintro ⟨hr, hrow, rfl⟩
    exact ⟨r, ⟨hr, hrow⟩, rfl, rfl⟩

theorem groupPairs_getElem? {m : Mech} {pairs g : List (Nat × Nat)} {k : Nat} (h : (groupPairs m pairs)[k]? = some g) :
    g = pairs.filter (fun x => m.groupMap.getD x.2 0 == k) := by
  obtain ⟨j, hj, rfl⟩ := Option.map_eq_some_iff.1 ((List.getElem?_map ..).symm.trans h)
  obtain ⟨-, rfl⟩ := List.getElem?_eq_some_iff.1 hj
  rw [List.getElem_range]

/-! ## A match -/

section

variable {s u : State} {e : Entry} {rest : List Entry} {p : Pass} {ch : Chan} {c : Nat} {b old : Burst}

theorem takeMatch_starts (hb : formBurst u ch c = b) (hpend : u.driver.pend ch = none) (hrun : u.driver.running = none)
    (hmay : mayStart u = true) :
    takeMatch ch c u = { u with driver := { u.driver with running := some { burst := b, next := 0 } } } := by
  rw [takeMatch_of_none hpend, if_pos (by simp [hrun, hmay]), hb]
  rfl

theorem takeMatch_waits (hb : formBurst u ch c = b) (hpend : u.driver.pend ch = none)
    (hbar : u.driver.running ≠ none ∨ mayStart u = false) :
    takeMatch ch c u = { u with driver := u.driver.setPend ch (some b) } := by
  rw [takeMatch_of_none hpend, if_neg (by rcases hbar with h | h <;> simp [h]), hb]
  rfl

/-- An older burst that owes no dots is displaced without a trace. -/
theorem takeMatch_displaces_idle (hb : formBurst u ch c = b) (hpend : u.driver.pend ch = some old)
    (hfree : old.orphan = true ∨ old.groups.flatten = []) :
    takeMatch ch c u = { u with driver := u.driver.setPend ch (some b) } := by
  have hlose : loseDots old old.groups.flatten u = u := by
    rcases hfree with h | h
    · exact loseDots_of_orphan h
    · rw [h, loseDots_nil]
  rw [takeMatch_of_waiting hpend, hlose, hb]
  rfl

theorem updateHeadColumn_eq (c : Nat) (f : Column → Column) (u : State) :
    updateHeadColumn c f u = u.setPool (updateHeadColumn c f u).pool := by
  unfold updateHeadColumn
  (repeat' split) <;> rfl

/-- The older burst that a match displaces loses the dots it owes. -/
theorem takeMatch_displaces (hq : u.queue = e :: rest) (hp : e.pass = some p) (hb : formBurst u ch c = b)
    (hpend : u.driver.pend ch = some old) (howed : old.orphan = false) (hdots : old.groups.flatten ≠ []) :
    takeMatch ch c u =
      { u with
        driver := u.driver.setPend ch (some b)
        pool := (updateHeadColumn old.column (fun x => { x with lost := x.lost ||| pairRows old.groups.flatten }) u).pool
        queue := { e with pass := some { p with dotsLost := p.dotsLost + old.groups.flatten.length } } :: rest
        events := { u.events with latched := u.events.latched ||| 0x010#12 } } := by
  have hqueue : ∀ f, (updateHeadColumn old.column f u).queue = e :: rest := fun f => by simpa using hq
  rw [takeMatch_of_waiting hpend, hb, loseDots_of_owed howed hdots, mapHeadPass_cons (hqueue _), updateHeadColumn_eq, hp]
  rfl

theorem updateHeadColumn_free (c : Nat) (f : Column → Column) (u : State) :
    (updateHeadColumn c f u).pool.free = u.pool.free := by
  rcases updateHeadColumn_pool c f u with h | ⟨k, v, h⟩ <;> rw [h]
  rfl

/-- A change of a column of the head reaches that column of the pool alone. -/
theorem updateHeadColumn_read (hq : u.queue = e :: rest) (hp : e.pass = some p) (hwf : u.pool.wf = true)
    (f : Column → Column) (k : Nat) : (updateHeadColumn c f u).pool.read k =
      if p.address (c - p.start) = some k then f (u.pool.read k) else u.pool.read k := by
  rw [updateHeadColumn_cons hq hp]
  rcases p.address (c - p.start) with _ | j
  · simp
  · refine (cellsRead_cellsWrite hwf j k _).trans ?_
    by_cases hkj : k = j
    · subst hkj
      simp
    · simp [hkj, Ne.symm hkj, Pool.read]

/-! ## The compare of an edge -/

variable {q : Nat} {hit hitA hitB : Option Elem}

theorem Channel.hit_eq {x : Channel}
    (h : ∀ y, hit = some y ↔ x.armed = true ∧ x.list[x.next]? = some y ∧ y.pos = q) : x.hit q = hit := by
  refine Option.ext fun y => ?_
  rw [h y, Channel.hit]
  split <;> simp_all [Option.filter_eq_some_iff]

theorem Channel.step_eq (x : Channel) (hit : Option Elem) :
    x.step hit = { x with next := x.next + if hit = none then 0 else 1 } := by
  cases hit <;> rfl

/-- The matches of one edge are handed to the Head Driver, channel A's first. -/
def handBoth (a b : Option Elem) (s : State) : State := handMatch .b b (handMatch .a a s)

theorem driverIdle_handBoth (h : hitA ≠ none ∨ hitB ≠ none) : driverIdle (handBoth hitA hitB s) = false := by
  rcases hitB with _ | y
  · obtain ⟨x, rfl⟩ := Option.ne_none_iff_exists'.1 (h.resolve_right (· rfl))
    exact driverIdle_takeMatch ..
  · exact driverIdle_takeMatch ..

theorem handBoth_carriage (a b : Option Elem) (s : State) : (handBoth a b s).carriage = s.carriage := by
  simp [handBoth]

/-- A drive fault taken while a burst runs ends the sweep. -/
theorem takeDriveFault_not_sweep {r : Running} (h : u.driver.running = some r) :
    (takeDriveFault u).carriage.state ≠ .sweep := by
  have hhalt : ∀ v, (haltSweep v).carriage.state ≠ .sweep := fun v => by
    unfold haltSweep
    split
    · simp [stopSweep, flushResume_carriage, brakeFor]
    · simp [flushResume_carriage, *]
    · rename_i hno _
      simpa [flushResume_carriage] using hno
  simp only [takeDriveFault, h]
  split <;> simp [hhalt]

/-- With something left to do a sweep does not end at the compare, whether or not a drive fault is found. -/
theorem checkSweepEnd_checkDriveFault (h : u.carriage.chanA.exhausted = false ∨ u.carriage.chanB.exhausted = false
    ∨ driverIdle u = false) : checkSweepEnd (checkDriveFault u) = checkDriveFault u := by
  unfold checkDriveFault
  split
  · rename_i hfault
    obtain ⟨r, hr⟩ := Option.isSome_iff_exists.1 (Bool.and_eq_true_iff.1 hfault).2
    exact checkSweepEnd_of_not (takeDriveFault_not_sweep hr)
  · exact checkSweepEnd_of_work h

/-- The state in which the matches of an edge are handed on: the channels' indices moved, the edge counted. -/
def stepped (hitA hitB : Option Elem) (s : State) : State :=
  { s with
    carriage :=
      { s.carriage with
        chanA := { s.carriage.chanA with next := s.carriage.chanA.next + if hitA = none then 0 else 1 }
        chanB := { s.carriage.chanB with next := s.carriage.chanB.next + if hitB = none then 0 else 1 } }
    driver := { s.driver with matchCount := s.driver.matchCount + if hitA = none ∧ hitB = none then 0 else 1 } }

theorem compareAt_eq (ha : s.carriage.chanA.hit q = hitA) (hb : s.carriage.chanB.hit q = hitB) :
    compareAt q s = checkSweepEnd (checkDriveFault (handBoth hitA hitB (stepped hitA hitB s))) := by
  unfold compareAt stepped handBoth
  simp only [ha, hb, Channel.step_eq]
  rcases hitA with _ | x <;> rcases hitB with _ | y <;> rfl

theorem compareAt_of_work (ha : s.carriage.chanA.hit q = hitA) (hb : s.carriage.chanB.hit q = hitB)
    (hwork : hitA ≠ none ∨ hitB ≠ none ∨ s.driver.running ≠ none ∨ s.driver.pendA ≠ none ∨ s.driver.pendB ≠ none
      ∨ s.carriage.chanA.next < s.carriage.chanA.list.length ∨ s.carriage.chanB.next < s.carriage.chanB.list.length) :
    compareAt q s = checkDriveFault (handBoth hitA hitB (stepped hitA hitB s)) := by
  rw [compareAt_eq ha hb]
  refine checkSweepEnd_checkDriveFault ?_
  by_cases hhit : hitA ≠ none ∨ hitB ≠ none
  · exact .inr (.inr (driverIdle_handBoth hhit))
  · obtain ⟨rfl, rfl⟩ : hitA = none ∧ hitB = none := by simpa using hhit
    have hleft : ∀ x : Channel, x.exhausted = false ↔ x.next < x.list.length := fun x => by simp [Channel.exhausted]
    have hbusy : driverIdle s = false ↔ s.driver.running ≠ none ∨ s.driver.pendA ≠ none ∨ s.driver.pendB ≠ none := by
      rw [← Bool.not_eq_true, driverIdle_iff]
      tauto
    show s.carriage.chanA.exhausted = false ∨ s.carriage.chanB.exhausted = false ∨ driverIdle s = false
    rw [hleft, hleft, hbusy]
    tauto

/-! ## The edges of a run-up and a sweep -/

variable {dir : Dir} {pl : Plan}

theorem edgeAt_sweep (hst : s.carriage.state = .sweep) (hpl : s.carriage.plan = some pl) :
    edgeAt dir q s = if dir = pl.dir then compareAt q s else s := by
  simp only [edgeAt, hst, hpl]

/-- The first firing position is that of one of the lists' heads. -/
theorem firstFiring_head {a b : List Elem} {z : Int} (h : firstFiring dir a b = some z) :
    (∃ x, a.head? = some x ∧ x.pos = z) ∨ ∃ y, b.head? = some y ∧ y.pos = z := by
  have hfirst : ∀ x y, firstOf dir x y = x ∨ firstOf dir x y = y := fun x y => by
    cases dir
    · exact min_choice x y
    · exact max_choice x y
  unfold firstFiring at h
  rcases a with _ | ⟨x, a⟩ <;> rcases b with _ | ⟨y, b⟩ <;> simp_all [joinPos]
  rcases hfirst x.pos y.pos with h' | h' <;> simp_all

/-- The state in which the edge that ends a run-up is compared: a sweep with both channels armed, counted to the head. -/
def sweepBegun (e : Entry) (rest : List Entry) (p : Pass) (s : State) : State :=
  { s with
    queue := { e with pass := some { p with sweeps := min 255 (p.sweeps + 1) } } :: rest
    carriage :=
      { s.carriage with
        state := .sweep
        chanA := { s.carriage.chanA with armed := true }
        chanB := { s.carriage.chanB with armed := true } } }

theorem endRunUp_cons (hq : s.queue = e :: rest) (hp : e.pass = some p) :
    endRunUp q s = compareAt q (sweepBegun e rest p s) := by
  rw [endRunUp, mapHeadPass_cons hq, hp]
  rfl

/-- A DFAULT_N already asserted is found as a burst starts (spec/04 R81). -/
def found (u : State) : Result := .next (settleTear (checkDriveFault u))

theorem found_of_clear (h : u.pins.driveFault = false) : found u = .next (settleTear u) := by
  rw [found, checkDriveFault_of_clear h]

theorem found_of_asserted (h : u.pins.driveFault = true) : found u = exec (.driveFault true) u := by
  have hpins : u.setPins { u.pins with driveFault := true } = u := by
    rw [← h]
    rfl
  show found u = .next (settleTear (checkDriveFault (u.setPins _)))
  rw [hpins]
  rfl

/-- The state in which an edge under drive is taken: P at its new count, the stall timer started afresh. -/
def movedTo (ch : Quad) (q : Nat) (s : State) : State :=
  { s with
    pins := (turnQuad ch s).pins
    carriage := { s.carriage with pos := some q }
    time := { s.time with stall := some 20 } }

theorem encoderEdge_of_driven {k : Quad} {n : Nat} (hdir : edgeDir k s = dir) (hpos : s.carriage.pos = some n)
    (hmove : (dir = .fwd ∧ q = n + 1) ∨ (dir = .rev ∧ n = q + 1)) (hle : q ≤ 21599) (hon : s.carriage.drive = .on) :
    encoderEdge k s = settleTear (edgeAt dir q (movedTo k q s)) := by
  rw [encoderEdge_of_moved hdir hpos hmove hle, edged_on (by simp [hon])]
  rfl

/-- An edge that is compared, with something left to do. -/
theorem exec_edge_compared {k : Quad} (hedge : encoderEdge k s = settleTear (compareAt q u))
    (ha : u.carriage.chanA.hit q = hitA) (hb : u.carriage.chanB.hit q = hitB)
    (hwork : hitA ≠ none ∨ hitB ≠ none ∨ u.driver.running ≠ none ∨ u.driver.pendA ≠ none ∨ u.driver.pendB ≠ none
      ∨ u.carriage.chanA.next < u.carriage.chanA.list.length ∨ u.carriage.chanB.next < u.carriage.chanB.list.length) :
    exec (.encoderEdge k) s = found (handBoth hitA hitB (stepped hitA hitB u)) :=
  congrArg Host.Outcome.next (hedge.trans (congrArg settleTear (compareAt_of_work ha hb hwork)))

end

/-- Settles O37: the rows, the groups, the match by the place it finds, and the edges by the state of the carriage. -/
theorem runUpEndsAndChannelsMatch : Obligations.RunUpEndsAndChannelsMatch := by
  refine ⟨fun pool p ch c r hr => ?_, ?_, takeMatch, handBoth, found,
    fun ch c u e rest pass b waiting hq hp hb hwaiting => ?_,
    fun u x y => ⟨rfl, rfl, rfl, rfl⟩, fun u => ⟨found_of_clear, found_of_asserted⟩,
    fun ch dir s p q pl e rest pass hitA hitB hdir hp hmove hle hpl hon hq hpass => ?_⟩
  · rw [chanOutstanding_getLsbD, Chan.rows_getLsbD ch hr]
    simp only [passColumn_left_getLsbD]
    constructor
    · rintro ⟨sup, hsup, ⟨hlow, hhigh⟩, ⟨block, col, hslot, hcol, hopen⟩, hrow⟩
      exact ⟨hlow, hhigh, hrow, sup, block, col, hsup, hslot, hcol, hopen⟩
    · rintro ⟨hlow, hhigh, hrow, sup, block, col, hsup, hslot, hcol, hopen⟩
      exact ⟨sup, hsup, ⟨hlow, hhigh⟩, ⟨block, col, hslot, hcol, hopen⟩, hrow⟩
  · rintro m pinMap rows groups rfl
    refine ⟨by simp [groupPairs], fun k g hg => ?_⟩
    rw [groupPairs_getElem? hg]
    refine ⟨(pairsOf_pairwise pinMap rows).filter _, fun r o => ?_⟩
    rw [List.mem_filter, mem_pairsOf, beq_iff_eq, and_assoc, and_assoc]
  · have hform : formBurst u ch c = b := (formBurst_cons hq hp ch c).trans hb.symm
    obtain rfl : waiting = u.driver.setPend ch (some b) := hwaiting.trans (by cases ch <;> rfl)
    refine ⟨fun hpend => ⟨fun hrun hst hpos hcover => ?_, fun hbar => ?_⟩, fun old hpend => ?_⟩
    · exact takeMatch_starts hform hpend hrun ((mayStart_iff u).2 ⟨hst, hpos, hcover⟩)
    · exact takeMatch_waits hform hpend (hbar.imp_right fun hopen => by simp [mayStart, hopen])
    · have hold : u.driver.pend ch = some old := by cases ch <;> exact hpend
      exact ⟨takeMatch_displaces_idle hform hold, fun howed hdots => ⟨_, takeMatch_displaces hq hp hform hold howed hdots,
        updateHeadColumn_free .., fun hwf => updateHeadColumn_read hq hp hwf _⟩⟩
  · have hedge := encoderEdge_of_driven hdir hp hmove hle hon
    refine ⟨fun hst hchanA hchanB hfirst hhitA hhitB => ?_, fun hst hagainst => ?_, fun hst halong hhitA hhitB hwork => ?_⟩
    · have hhit : hitA ≠ none ∨ hitB ≠ none := (firstFiring_head hfirst).imp
        (fun ⟨x, hx⟩ => by simp [(hhitA x).2 hx]) (fun ⟨y, hy⟩ => by simp [(hhitB y).2 hy])
      rw [edgeAt_runup (s := movedTo ch q s) hst hpl, if_pos hfirst, endRunUp_cons (s := movedTo ch q s) hq hpass] at hedge
      refine (exec_edge_compared hedge (Channel.hit_eq fun x => ?_) (Channel.hit_eq fun y => ?_)
        (hhit.elim .inl fun h => .inr (.inl h))).trans (congrArg (fun v => found (handBoth hitA hitB v)) ?_)
      · rw [hhitA x]
        simp [sweepBegun, movedTo, hchanA, List.head?_eq_getElem?]
      · rw [hhitB y]
        simp [sweepBegun, movedTo, hchanB, List.head?_eq_getElem?]
      · simp only [stepped, sweepBegun, movedTo, hchanA, hchanB, Nat.zero_add, if_neg (not_and_or.2 hhit)]
        cases ch <;> rfl
    · rw [edgeAt_sweep (s := movedTo ch q s) hst hpl, if_neg hagainst] at hedge
      cases ch <;> exact congrArg Host.Outcome.next hedge
    · rw [edgeAt_sweep (s := movedTo ch q s) hst hpl, if_pos halong] at hedge
      refine (exec_edge_compared hedge (Channel.hit_eq hhitA) (Channel.hit_eq hhitB) hwork).trans
        (congrArg (fun v => found (handBoth hitA hitB v)) ?_)
      cases ch <;> rfl

end Sys2Proof.Machine
end

section
/-! Ticks and heat: what a tick counts, and how the heat of a head falls. -/

namespace Sys2Proof.Machine

/-! ## Hmax -/

/-- Hmax is under a bound exactly when every heat value is. -/
theorem hmaxOf_lt_iff {h : List Nat} {n : Nat} (hn : 0 < n) : hmaxOf h < n ↔ ∀ x ∈ h, x < n := by
  obtain ⟨hle, hmem⟩ := hmaxOf_spec h
  refine ⟨fun hlt x hx => Nat.lt_of_le_of_lt (hle x hx) hlt, fun hall => ?_⟩
  rcases hmem with h0 | hmem
  · rwa [h0]
  · exact hall _ hmem

/-! ## MS_TICK and COOLING_TICK -/

theorem tickTimer_eq_map (t : Option Nat) : tickTimer t = t.map (fun n => n - 1) := by cases t <;> rfl

theorem msTick_eq (s : State) : msTick s =
    { s with
      time :=
        { ms := s.time.ms + 1#32
          divider := if s.time.divider < 9 then s.time.divider + 1 else 0
          coolingOwed := if s.time.divider < 9 then s.time.coolingOwed else s.time.coolingOwed + 1
          window := s.time.window.map (fun n => n - 1)
          tearIdle := s.time.tearIdle.map (fun n => n - 1)
          stall := s.time.stall.map (fun n => n - 1)
          byteGap := s.time.byteGap.map (fun n => n - 1) } } := by
  simp only [msTick, tickTimer_eq_map, ← Nat.not_lt, ite_not]
  rfl

/-- The state after a cooling tick, but for the end of a cool-down wait. -/
def cooled (s : State) : State :=
  { s with
    time := { s.time with coolingOwed := s.time.coolingOwed - 1 }
    heat := s.heat.map coolHeat }

section

variable {s : State} (howed : 0 < s.time.coolingOwed)

include howed

/-- The wait of the head for a cool head ends. -/
theorem coolingTick_of_cool (hph : s.runner.phase = .coolWait) (hcool : ∀ h ∈ s.heat.map coolHeat, h < 4096) :
    coolingTick s = (cooled s).setRunner { s.runner with phase := .position } :=
  (if_pos howed).trans (if_pos ⟨hph, (hmaxOf_lt_iff (by decide)).2 hcool⟩)

theorem coolingTick_of_not (h : s.runner.phase ≠ .coolWait ∨ ∃ h ∈ s.heat.map coolHeat, 4096 ≤ h) :
    coolingTick s = cooled s := by
  refine (if_pos howed).trans (if_neg fun ⟨hph, hlt⟩ => ?_)
  obtain ⟨x, hx, hhot⟩ := h.resolve_left (· hph)
  exact Nat.not_lt.2 hhot ((hmaxOf_lt_iff (by decide)).1 hlt x hx)

end

/-- Settles O29: the tick of the Time Base, and the cooling tick by whether a cool-down wait ends with it. -/
theorem ticksCountAndCool : Obligations.TicksCountAndCool := by
  refine ⟨fun s => congrArg Host.Outcome.next (msTick_eq s), fun s howed => ?_⟩
  by_cases hend : s.runner.phase = .coolWait ∧ ∀ h ∈ s.heat.map coolHeat, h < 4096
  · obtain ⟨hph, hcool⟩ := hend
    refine ⟨_, congrArg Host.Outcome.next (coolingTick_of_cool howed hph hcool), rfl, rfl, fun _ _ => rfl,
      fun h => ?_, rfl⟩
    obtain ⟨x, hx, hhot⟩ := h.resolve_left (· hph)
    exact absurd (hcool x hx) (Nat.not_lt.2 hhot)
  · have hwait : s.runner.phase ≠ .coolWait ∨ ∃ h ∈ s.heat.map coolHeat, 4096 ≤ h := by
      simpa only [not_and_or, not_forall, Nat.not_lt, exists_prop] using hend
    exact ⟨_, congrArg Host.Outcome.next (coolingTick_of_not howed hwait), rfl, rfl,
      fun hph hcool => absurd ⟨hph, hcool⟩ hend, fun _ => rfl, rfl⟩

/-! ## Heat that no firing renews -/

/-- A cooling tick takes at least one from a heat value that is not 0. -/
theorem coolHeat_le (h : Nat) : coolHeat h ≤ h - 1 := by
  unfold coolHeat
  omega

theorem coolHeat_iterate_le (m h : Nat) : coolHeat^[m] h ≤ h - m := by
  induction m generalizing h with
  | zero => exact Nat.le_refl _
  | succ m ih =>
    calc coolHeat^[m] (coolHeat h) ≤ coolHeat h - m := ih _
      _ ≤ h - 1 - m := Nat.sub_le_sub_right (coolHeat_le h) m
      _ = h - (m + 1) := by omega

theorem coolHeat_iterate_eq_zero {m h : Nat} (hle : h ≤ m) : coolHeat^[m] h = 0 := by
  have := coolHeat_iterate_le m h
  omega

/-- Settles O30: Hmax itself is a number of ticks after which every value is 0, since each takes one at least. -/
theorem unrenewedHeatReachesZero : Obligations.UnrenewedHeatReachesZero := by
  refine ⟨fun h hlow hhigh => ?_, rfl, fun s _ => ⟨hmax s, fun m hm => ⟨coolHeat_iterate_eq_zero hm, fun h hh => ?_⟩⟩⟩
  · unfold coolHeat
    omega
  · exact coolHeat_iterate_eq_zero (((hmaxOf_spec s.heat).1 h hh).trans hm)

end Sys2Proof.Machine
end

section
/-! Slots: what the start of a slot does to the outputs, the heat and the dots of its group. -/

namespace Sys2Proof.Machine

/-! ## Marked dots of the head print entry -/

section

variable {s : State} {e : Entry} {rest : List Entry} {p : Pass} (hq : s.queue = e :: rest) (hp : e.pass = some p)

include hq hp

/-- Marks are counted to the head's pass. -/
theorem markDots_queue (m : Mark) (c : Nat) (pairs : List (Nat × Nat)) :
    (markDots m c pairs s).queue = { e with pass := some (m.count pairs.length p) } :: rest := by
  have hqueue : (updateHeadColumn c (m.put (pairRows pairs)) s).queue = e :: rest := by simpa using hq
  rw [markDots, mapHeadPass_cons hqueue, hp]
  rfl

/-- Marks reach the pool at the column's address alone. -/
theorem markDots_read (m : Mark) (c : Nat) (pairs : List (Nat × Nat)) (hwf : s.pool.wf = true) (k : Nat) :
    (markDots m c pairs s).pool.read k =
      if p.address (c - p.start) = some k then m.put (pairRows pairs) (s.pool.read k) else s.pool.read k := by
  rw [markDots, (mapHeadPass_frame _ _).2.2.1]
  exact updateHeadColumn_read hq hp hwf _ k

end

section

variable {s : State} {b : Burst} {pairs : List (Nat × Nat)}

theorem fireDots_of_orphan (h : b.orphan = true) : fireDots b pairs s = s := by simp [fireDots_eq, h]

theorem fireDots_of_owed (h : b.orphan = false) (hpairs : pairs ≠ []) :
    fireDots b pairs s = markDots .fired b.column pairs s := by simp [fireDots_eq, h, hpairs]

theorem fireDots_free : (fireDots b pairs s).pool.free = s.pool.free := by
  rw [fireDots_eq]
  split
  · rfl
  · rw [markDots, (mapHeadPass_frame _ _).2.2.1, updateHeadColumn_free]

variable {e : Entry} {rest : List Entry} {p : Pass} (hq : s.queue = e :: rest) (hp : e.pass = some p)
  (hb : b.orphan = false)

include hq hp hb

theorem fireDots_queue : (fireDots b pairs s).queue =
    { e with pass := some { p with dotsFired := p.dotsFired + pairs.length } } :: rest := by
  by_cases hpairs : pairs = []
  · subst hpairs
    rw [fireDots_eq, if_pos (by simp), hq]
    simp [← hp]
  · rw [fireDots_of_owed hb hpairs, markDots_queue hq hp]
    rfl

theorem fireDots_read (hwf : s.pool.wf = true) (k : Nat) : (fireDots b pairs s).pool.read k =
    if pairs ≠ [] ∧ p.address (b.column - p.start) = some k then
      { s.pool.read k with fired := (s.pool.read k).fired ||| pairRows pairs }
    else s.pool.read k := by
  by_cases hpairs : pairs = []
  · simp [fireDots_eq, hpairs]
  · rw [fireDots_of_owed hb hpairs, markDots_read hq hp _ _ _ hwf]
    simp only [ne_eq, hpairs, not_false_eq_true, true_and]
    rfl

end

/-! ## The outputs of a group -/

theorem pairOutputs_eq (pairs : List (Nat × Nat)) : pairOutputs pairs = pairRows (pairs.map Prod.swap) := by
  simp [pairOutputs, pairRows, List.foldl_map]

theorem pairOutputs_getLsbD (pairs : List (Nat × Nat)) (i : Nat) :
    (pairOutputs pairs).getLsbD i = true ↔ i < 24 ∧ i ∈ pairs.map Prod.snd := by
  rw [pairOutputs_eq, pairRows_getLsbD, List.map_map]
  rfl

/-! ## The heat of a group -/

section

variable {e : Nat} {pairs : List (Nat × Nat)} {h : List Nat}

/-- Each output of a group is charged once, when no output stands in it twice. -/
theorem chargePairs_getD (hnodup : (pairs.map Prod.snd).Nodup) {q : Nat} (hq : q < h.length) :
    (chargePairs e pairs h).getD q 0 =
      if q ∈ pairs.map Prod.snd then min 16383 (h.getD q 0 + e) else h.getD q 0 := by
  induction pairs generalizing h with
  | nil => simp [chargePairs]
  | cons x t ih =>
    obtain ⟨hx, ht⟩ := List.nodup_cons.1 (List.map_cons .. ▸ hnodup)
    have hlen : q < (chargeHeat h x.2 e).length := by simpa [chargeHeat] using hq
    rw [chargePairs, ih ht hlen]
    by_cases hqx : q = x.2
    · subst hqx
      rw [if_neg hx, if_pos (by simp), chargeHeat_getD _ _ _ _ hq, if_pos rfl]
    · have hother : (chargeHeat h x.2 e).getD q 0 = h.getD q 0 := by simp [chargeHeat, Ne.symm hqx]
      simp only [hother, List.map_cons, List.mem_cons, hqx, false_or]

/-- A charge never leaves a value below a bound that it had reached. -/
theorem chargeHeat_keeps_reached {n p q : Nat} (hn : n ≤ 16383) (hq : q < h.length) (hreached : n ≤ h.getD q 0) :
    n ≤ (chargeHeat h p e).getD q 0 := by
  by_cases hqp : q = p
  · subst hqp
    rw [chargeHeat_getD _ _ _ _ hq, if_pos rfl]
    omega
  · simpa [chargeHeat, Ne.symm hqp] using hreached

theorem chargePairs_keeps_reached {n q : Nat} (hn : n ≤ 16383) (hq : q < h.length) (hreached : n ≤ h.getD q 0) :
    n ≤ (chargePairs e pairs h).getD q 0 := by
  induction pairs generalizing h with
  | nil => exact hreached
  | cons x t ih =>
    exact ih (by simpa [chargeHeat] using hq) (chargeHeat_keeps_reached hn hq hreached)

/-- An output whose charge reaches a bound is left at it or above, also when the group charges it more than once. -/
theorem chargePairs_reaches {n : Nat} (hn : n ≤ 16383) {x : Nat × Nat} (hx : x ∈ pairs) (hlt : x.2 < h.length)
    (hreach : n ≤ h.getD x.2 0 + e) : n ≤ (chargePairs e pairs h).getD x.2 0 := by
  induction pairs generalizing h with
  | nil => cases hx
  | cons y t ih =>
    have hlen : x.2 < (chargeHeat h y.2 e).length := by simpa [chargeHeat] using hlt
    by_cases hxy : x.2 = y.2
    · refine chargePairs_keeps_reached (h := chargeHeat h y.2 e) hn hlen ?_
      rw [← hxy, chargeHeat_getD _ _ _ _ hlt, if_pos rfl]
      omega
    · have hxt : x ∈ t := (List.mem_cons.1 hx).resolve_left fun h => hxy (congrArg Prod.snd h)
      have hother : (chargeHeat h y.2 e).getD x.2 0 = h.getD x.2 0 := by simp [chargeHeat, Ne.symm hxy]
      exact ih hxt hlen (hother ▸ hreach)

theorem raisesThermal_iff : raisesThermal pairs h = true ↔ ∃ x ∈ pairs, 6144 ≤ h.getD x.2 0 := by
  simp only [raisesThermal, List.any_eq_true, decide_eq_true_eq]
  rfl

end

/-! ## BURST_SLOT -/

/-- The state in which a slot's thermal trigger is judged: the group pulsed, its dots marked, its heat charged. -/
def slotFired (r : Running) (pairs : List (Nat × Nat)) (s : State) : State :=
  { s with
    queue := (fireDots r.burst pairs s).queue
    pool := (fireDots r.burst pairs s).pool
    driver := { s.driver with running := some { r with next := r.next + 1 } }
    outputs := { s.outputs with pinOut := pairOutputs pairs, pulse := 30 + 10 * (activeProfile s).copies }
    heat := chargePairs (4 + (activeProfile s).copies) pairs s.heat }

theorem fireDots_queue_pool (b : Burst) (pairs : List (Nat × Nat)) (s : State) :
    fireDots b pairs s = (s.setQueue (fireDots b pairs s).queue).setPool (fireDots b pairs s).pool := by
  unfold fireDots mapHeadPass mapHead updateHeadColumn
  (repeat' split) <;> rfl

section

variable {s : State} {r : Running} {pairs : List (Nat × Nat)} (hr : s.driver.running = some r)
  (hpairs : r.burst.groups[r.next]? = some pairs)

include hr hpairs

theorem burstSlot_eq : burstSlot s = if raisesThermal pairs (slotFired r pairs s).heat then
    suspendTrigger .thermal (slotFired r pairs s) else slotFired r pairs s := by
  obtain ⟨hlt, hget⟩ := List.getElem?_eq_some_iff.1 hpairs
  have hgroup : r.burst.groups.getD r.next [] = pairs := by simp [List.getD, hpairs]
  simp only [burstSlot, hr, if_pos hlt, hgroup]
  rw [fireDots_queue_pool]
  rfl

/-- Outside a run-up a slot suspends nothing when no output is left hot, or there is no sweep, or one with nothing left
to do. -/
theorem burstSlot_fires (hst : s.carriage.state ≠ .runup)
    (hcalm : s.carriage.state ≠ .sweep ∨ raisesThermal pairs (slotFired r pairs s).heat = false
      ∨ (s.carriage.chanA.list.length ≤ s.carriage.chanA.next ∧ s.carriage.chanB.list.length ≤ s.carriage.chanB.next
        ∧ s.driver.pendA = none ∧ s.driver.pendB = none)) : burstSlot s = slotFired r pairs s := by
  rw [burstSlot_eq hr hpairs]
  split
  · rename_i hraises
    by_cases hsweep : s.carriage.state = .sweep
    · obtain ⟨ha, hb, hpa, hpb⟩ := (hcalm.resolve_left (· hsweep)).resolve_left (by simp [hraises])
      exact suspendTrigger_spent (s := slotFired r pairs s) hsweep ((Channel.exhausted_iff _).2 ha)
        ((Channel.exhausted_iff _).2 hb) hpa hpb
    · exact suspendTrigger_elsewhere (s := slotFired r pairs s) hst hsweep
  · rfl

/-- A slot that leaves an output hot stops a sweep with work left; the resume columns wait for the end of the burst. -/
theorem burstSlot_suspends {pl : Plan} (hraises : raisesThermal pairs (slotFired r pairs s).heat = true)
    (hst : s.carriage.state = .sweep) (hpl : s.carriage.plan = some pl)
    (hwork : s.carriage.chanA.next < s.carriage.chanA.list.length ∨ s.carriage.chanB.next < s.carriage.chanB.list.length
      ∨ s.driver.pendA ≠ none ∨ s.driver.pendB ≠ none) :
    burstSlot s =
      { slotFired r pairs s with
        carriage :=
          { s.carriage with
            state := .braking, brake := some (.suspend .thermal pl.grade), plan := none
            chanA := Channel.empty, chanB := Channel.empty
            resumeDue := some { listA := pl.listA, listB := pl.listB } }
        driver := { s.driver with running := some { r with next := r.next + 1 }, pendA := none, pendB := none } } := by
  have hleft : s.carriage.chanA.exhausted = false ∨ s.carriage.chanB.exhausted = false ∨ s.driver.pendA ≠ none
      ∨ s.driver.pendB ≠ none := by
    simpa only [Channel.exhausted, decide_eq_false_iff_not, Nat.not_le] using hwork
  have hplan : (slotFired r pairs s).carriage.plan = some pl := hpl
  rw [burstSlot_eq hr hpairs, if_pos hraises, suspendTrigger_sweep (s := slotFired r pairs s) hst hleft,
    sweepGrade_of_plan hplan, stopSweep_of_running hplan rfl]
  rfl

end

/-- Settles O38: the group is fired as `slotFired` says; the trigger acts by the heat left and the sweep found. -/
theorem slotFiresGroup : Obligations.SlotFiresGroup := by
  refine ⟨fun s r pairs hr hpairs hnodup hbound hlen hwf hrunup hcalm => ?_,
    fun s r pairs pl x hr hpairs hx hlt hlen hhot hst hpl hwork => ?_, pairRows_getLsbD⟩
  · have hheat : ∀ p < 24, (slotFired r pairs s).heat.getD p 0 = if p ∈ pairs.map Prod.snd
        then min 16383 (s.heat.getD p 0 + (4 + (activeProfile s).copies)) else s.heat.getD p 0 := fun p hp =>
      chargePairs_getD hnodup (hlen ▸ hp)
    have hfires := burstSlot_fires hr hpairs hrunup <| hcalm.imp_right <| Or.imp_left fun hcool => by
      rw [← Bool.not_eq_true, raisesThermal_iff]
      rintro ⟨x, hx, hhot⟩
      rw [hheat x.2 (hbound x hx).2, if_pos (List.mem_map_of_mem hx)] at hhot
      have := hcool x hx
      omega
    refine ⟨_, congrArg Host.Outcome.next hfires, rfl, fun p => ?_, rfl, (chargePairs_length ..).trans hlen, hheat,
      fun horphan => ?_, fun e rest p howed hq hp => ⟨fireDots_queue hq hp howed, fireDots_read hq hp howed hwf⟩,
      rfl, rfl, rfl, rfl, rfl, rfl, fireDots_free⟩
    · rw [Bool.eq_iff_iff, List.contains_iff_mem, slotFired, pairOutputs_getLsbD, and_iff_right_iff_imp]
      intro hp
      obtain ⟨x, hx, rfl⟩ := List.mem_map.1 hp
      exact (hbound x hx).2
    · simp [slotFired, fireDots_of_orphan horphan]
  · have hraises : raisesThermal pairs (slotFired r pairs s).heat = true :=
      raisesThermal_iff.2 ⟨x, hx, chargePairs_reaches (by decide) hx (hlen ▸ hlt) hhot⟩
    refine ⟨_, congrArg Host.Outcome.next (burstSlot_suspends hr hpairs hraises hst hpl hwork), rfl, rfl,
      pairOutputs_getLsbD pairs, rfl, (chargePairs_length ..).trans hlen,
      fun hnodup p hp => chargePairs_getD hnodup (hlen ▸ hp), fun horphan => ?_,
      fun e rest p howed hq hp hwf => ⟨fireDots_queue hq hp howed, fun k => ?_⟩, rfl, rfl, rfl, rfl, rfl, fireDots_free⟩
    · simp [slotFired, fireDots_of_orphan horphan]
    · exact (fireDots_read hq hp howed hwf k).trans (by simp [List.ne_nil_of_mem hx])

end Sys2Proof.Machine
end

section
/-! The end of a burst: what it starts, writes and ends. -/

namespace Sys2Proof.Machine

/-- The resume columns of a stopped sweep: the first outstanding column of each list, else done (spec/03 R61). -/
theorem resumeOf_spec (pool : Pool) (p : Pass) (ch : Chan) (l : List Elem) :
    ((∀ x ∈ l, chanOutstanding pool p ch x.column = 0#24) → resumeOf pool p ch l = .done)
    ∧ ∀ before x after, l = before ++ x :: after → (∀ y ∈ before, chanOutstanding pool p ch y.column = 0#24) →
      chanOutstanding pool p ch x.column ≠ 0#24 → resumeOf pool p ch l = .column x.column :=
  ⟨resumeOf_done, fun _ _ _ hl hbefore hx => hl ▸ resumeOf_first hbefore hx⟩

/-! ## The pending burst whose turn it is -/

section

variable {d : Driver} {a b : Burst}

theorem nextPending_eq_a (ha : d.pendA = some a) (hb : ∀ b, d.pendB = some b → a.order ≤ b.order) :
    nextPending d = some .a := by
  unfold nextPending
  rcases hpb : d.pendB with _ | b
  · simp [ha]
  · simp [ha, hb b hpb]

theorem nextPending_eq_b (hb : d.pendB = some b) (ha : ∀ a, d.pendA = some a → b.order < a.order) :
    nextPending d = some .b := by
  unfold nextPending
  rcases hpa : d.pendA with _ | a
  · simp [hb]
  · simp [hb, Nat.not_le.2 (ha a hpa)]

end

/-! ## The driver as a burst ends -/

/-- The state in which a burst has ended: the driver free, no output pulsed. -/
def burstFreed (s : State) : State :=
  { s with driver := { s.driver with running := none }, outputs := { s.outputs with pinOut := 0#24 } }

/-- The state in which a pending burst has started in turn. -/
def burstStarted (ch : Chan) (b : Burst) (s : State) : State :=
  { burstFreed s with driver := { s.driver.setPend ch none with running := some { burst := b, next := 0 } } }

section

variable {s : State}

theorem startPending_freed_none (h : s.driver.pendA = none ∧ s.driver.pendB = none) :
    startPending (burstFreed s) = burstFreed s := by
  obtain ⟨ha, hb⟩ := h
  unfold startPending
  split
  · simp [nextPending, burstFreed, ha, hb]
  · rfl

theorem startPending_freed {ch : Chan} {b : Burst} (hmay : mayStart s = true) (hnext : nextPending s.driver = some ch)
    (hb : s.driver.pend ch = some b) : startPending (burstFreed s) = burstStarted ch b s := by
  have hmay' : mayStart (burstFreed s) = true := hmay
  have hnext' : nextPending (burstFreed s).driver = some ch := hnext
  have hb' : (burstFreed s).driver.pend ch = some b := by cases ch <;> exact hb
  rw [startPending, if_pos (by rw [hmay']; rfl), hnext']
  dsimp only
  rw [hb']
  cases ch <;> rfl

theorem burstEnd_early {r : Running} (hr : s.driver.running = some r) (h : r.next < r.burst.groups.length) :
    burstEnd s = s := by
  simp only [burstEnd, hr, if_neg (Nat.not_le.2 h)]

variable {r : Running} (hr : s.driver.running = some r) (hend : r.burst.groups.length ≤ r.next)

include hr hend

theorem burstEnd_eq :
    burstEnd s = settleTear (checkSweepEnd (checkDriveFault (startPending (flushResume (burstFreed s))))) := by
  simp only [burstEnd, hr, if_pos hend]
  rfl

theorem burstEnd_of_not_due (hdue : s.carriage.resumeDue = none) :
    burstEnd s = settleTear (checkSweepEnd (checkDriveFault (startPending (burstFreed s)))) := by
  rw [burstEnd_eq hr hend, flushResume_of_none (s := burstFreed s) hdue]

/-- The burst that waits starts; a DFAULT_N already asserted is found at its start. -/
theorem exec_burstEnd_starts (hdue : s.carriage.resumeDue = none) {ch : Chan} {b : Burst} (hmay : mayStart s = true)
    (hnext : nextPending s.driver = some ch) (hb : s.driver.pend ch = some b) :
    exec .burstEnd s = found (burstStarted ch b s) := by
  refine (congrArg Host.Outcome.next (burstEnd_of_not_due hr hend hdue)).trans ?_
  have hbusy : driverIdle (burstStarted ch b s) = false := by simp [driverIdle, burstStarted]
  rw [startPending_freed hmay hnext hb, checkSweepEnd_checkDriveFault (.inr (.inr hbusy))]
  rfl

/-- Nothing starts: the driver is free, and an exhausted sweep ends. -/
theorem burstEnd_frees (hdue : s.carriage.resumeDue = none)
    (hidle : mayStart s = false ∨ (s.driver.pendA = none ∧ s.driver.pendB = none)) :
    burstEnd s = settleTear (checkSweepEnd (burstFreed s)) := by
  have hstart : startPending (burstFreed s) = burstFreed s :=
    hidle.elim (fun h => startPending_of_barred h) startPending_freed_none
  rw [burstEnd_of_not_due hr hend hdue, hstart, checkDriveFault_of_free rfl]

end

section

variable {s : State}

/-- An exhausted sweep with no burst left ends: both resume columns are done and the carriage brakes. -/
theorem checkSweepEnd_freed {pl : Plan} {e : Entry} {rest : List Entry} {p : Pass} (hst : s.carriage.state = .sweep)
    (ha : s.carriage.chanA.list.length ≤ s.carriage.chanA.next)
    (hb : s.carriage.chanB.list.length ≤ s.carriage.chanB.next)
    (hpend : s.driver.pendA = none ∧ s.driver.pendB = none) (hpl : s.carriage.plan = some pl) (hq : s.queue = e :: rest)
    (hp : e.pass = some p) :
    checkSweepEnd (burstFreed s) =
      { burstFreed s with
        carriage :=
          { s.carriage with
            state := .braking, brake := some (.sweepEnd pl.grade), plan := none
            chanA := Channel.empty, chanB := Channel.empty }
        queue := { e with pass := some { p with resumeA := some .done, resumeB := some .done } } :: rest } := by
  have hplan : (burstFreed s).carriage.plan = some pl := hpl
  have hqueue : (burstFreed s).queue = e :: rest := hq
  refine (if_pos ⟨hst, (Channel.exhausted_iff _).2 ha, (Channel.exhausted_iff _).2 hb,
    (driverIdle_iff _).2 ⟨rfl, hpend⟩⟩).trans ?_
  rw [endSweep, sweepGrade_of_plan hplan, mapHeadPass_cons hqueue, hp]
  rfl

end

/-- Either nothing may start as the driver comes free, or a pending burst does in its turn. -/
theorem burst_turn (s : State) : (mayStart s = false ∨ (s.driver.pendA = none ∧ s.driver.pendB = none))
    ∨ (mayStart s = true ∧ ∃ ch b, nextPending s.driver = some ch ∧ s.driver.pend ch = some b) := by
  rcases hmay : mayStart s
  · exact .inl (.inl rfl)
  unfold nextPending
  rcases ha : s.driver.pendA with _ | a <;> rcases hb : s.driver.pendB with _ | b
  · exact .inl (.inr ⟨rfl, rfl⟩)
  · exact .inr ⟨rfl, .b, b, rfl, hb⟩
  · exact .inr ⟨rfl, .a, a, rfl, ha⟩
  · dsimp only
    split
    · exact .inr ⟨rfl, .a, a, rfl, ha⟩
    · exact .inr ⟨rfl, .b, b, rfl, hb⟩

/-- Outside a sweep a free driver starts nothing, and neither a drive fault nor a sweep's end follows. -/
theorem startPending_checks_of_not_sweep {u : State} (hst : u.carriage.state ≠ .sweep) (hr : u.driver.running = none) :
    checkSweepEnd (checkDriveFault (startPending u)) = u := by
  rw [startPending_of_barred (by simp [mayStart, hst]), checkDriveFault_of_free hr, checkSweepEnd_of_not hst]

/-- Settles O39: a burst that ends starts the next one, or frees the driver and lets an exhausted sweep end. -/
theorem burstEndStartsNextOrEndsSweep : Obligations.BurstEndStartsNextOrEndsSweep := by
  refine ⟨resumeOf, resumeOf_spec, fun s r hr => ⟨fun hearly => ?_, fun hend hdue hfault => ?_,
    fun hend hdue hfault hst hpos hcover => ?_, fun hend hst d e rest p hdue hq hp => ?_⟩⟩
  · exact congrArg Host.Outcome.next (burstEnd_early hr hearly)
  · rcases burst_turn s with hidle | ⟨hmay, ch, b, hnext, hb⟩
    · refine ⟨_, congrArg Host.Outcome.next (burstEnd_frees hr hend hdue hidle), by simp [burstFreed],
        fun hst hpos hcover => ?_, fun _ => by simp [burstFreed],
        fun hpa hpb hst pl e rest p hpl hq hp => ⟨fun ha hb => ?_, fun hwork => ?_⟩, fun hst => ?_,
        by simp [burstFreed]⟩
      · obtain ⟨hpa, hpb⟩ := hidle.resolve_left (by simp [(mayStart_iff s).2 ⟨hst, hpos, hcover⟩])
        exact ⟨fun a ha => absurd (hpa.symm.trans ha) nofun, fun b hb => absurd (hpb.symm.trans hb) nofun⟩
      · simp [checkSweepEnd_freed hst ha hb ⟨hpa, hpb⟩ hpl hq hp, Channel.empty]
      · have hleft : s.carriage.chanA.exhausted = false ∨ s.carriage.chanB.exhausted = false := by
          simpa only [Channel.exhausted, decide_eq_false_iff_not, Nat.not_le] using hwork
        rw [checkSweepEnd_of_work (s := burstFreed s) (by exact hleft.imp_right .inl)]
        simp [burstFreed]
      · rw [checkSweepEnd_of_not (s := burstFreed s) hst]
        simp [burstFreed]
    · obtain ⟨hst, hpos, hcover⟩ := (mayStart_iff s).1 hmay
      have hpend : ¬(s.driver.pendA = none ∧ s.driver.pendB = none) := fun ⟨ha, hb⟩ => by
        simp [nextPending, ha, hb] at hnext
      have hclear : s.pins.driveFault = false := hfault.resolve_right (by simp [hst, hcover, hpend])
      refine ⟨_, (exec_burstEnd_starts hr hend hdue hmay hnext hb).trans (found_of_clear hclear),
        by simp [burstStarted, burstFreed], fun _ _ _ => ⟨fun a ha hfirst => ?_, fun b' hb' hfirst => ?_⟩,
        fun h => absurd h (by simp [hcover, hpend]), fun hpa hpb => absurd ⟨hpa, hpb⟩ hpend,
        fun hother => absurd hst hother, by simp [burstStarted, burstFreed]⟩
      · obtain rfl : Chan.a = ch := Option.some.inj ((nextPending_eq_a ha hfirst).symm.trans hnext)
        obtain rfl : a = b := Option.some.inj (ha.symm.trans hb)
        simp [burstStarted, burstFreed, Driver.setPend]
      · obtain rfl : Chan.b = ch := Option.some.inj ((nextPending_eq_b hb' hfirst).symm.trans hnext)
        obtain rfl : b' = b := Option.some.inj (hb'.symm.trans hb)
        simp [burstStarted, burstFreed, Driver.setPend]
  · have hmay : mayStart s = true := (mayStart_iff s).2 ⟨hst, hpos, hcover⟩
    refine ⟨fun a ha hfirst => ?_, fun b hb hfirst => ?_⟩
    · exact (exec_burstEnd_starts hr hend hdue hmay (nextPending_eq_a ha hfirst) ha).trans (found_of_asserted hfault)
    · exact (exec_burstEnd_starts hr hend hdue hmay (nextPending_eq_b hb hfirst) hb).trans (found_of_asserted hfault)
  · refine congrArg Host.Outcome.next ((burstEnd_eq hr hend).trans (congrArg settleTear ?_))
    rw [flushResume_cons (s := burstFreed s) hdue rfl hq, hp]
    exact startPending_checks_of_not_sweep hst rfl

end Sys2Proof.Machine
end

section
/-! The drive-fault input: what a fault taken in a burst loses, halts and writes. -/

namespace Sys2Proof.Machine

/-! ## Lost dots of the head print entry -/

section

variable {s : State} {b : Burst} {pairs : List (Nat × Nat)}

theorem loseDots_of_dots (h : b.orphan = false) (hpairs : pairs ≠ []) :
    loseDots b pairs s = latch .dotsLost (markDots .lost b.column pairs s) := by simp [loseDots_eq, h, hpairs]

/-- DOTS_LOST is latched when there is a dot to lose. -/
theorem loseDots_events (h : b.orphan = false) : (loseDots b pairs s).events =
    { s.events with latched := s.events.latched ||| (if pairs = [] then 0x000#12 else 0x010#12) } := by
  by_cases hpairs : pairs = []
  · simp [hpairs, loseDots_nil]
  · rw [loseDots_of_dots h hpairs, if_neg hpairs, latch_eq, (markDots_frame ..).2.2.2.2]
    rfl

variable {e : Entry} {rest : List Entry} {p : Pass} (hq : s.queue = e :: rest) (hp : e.pass = some p)
  (hb : b.orphan = false)

include hq hp hb

theorem loseDots_queue :
    (loseDots b pairs s).queue = { e with pass := some { p with dotsLost := p.dotsLost + pairs.length } } :: rest := by
  by_cases hpairs : pairs = []
  · subst hpairs
    rw [loseDots_nil, hq]
    simp [← hp]
  · rw [loseDots_of_dots hb hpairs, (latch_frame _ _).2.2.1, markDots_queue hq hp]
    rfl

theorem loseDots_read (hwf : s.pool.wf = true) (k : Nat) : (loseDots b pairs s).pool.read k =
    if pairs ≠ [] ∧ p.address (b.column - p.start) = some k then
      { s.pool.read k with lost := (s.pool.read k).lost ||| pairRows pairs }
    else s.pool.read k := by
  by_cases hpairs : pairs = []
  · simp [hpairs, loseDots_nil]
  · rw [loseDots_of_dots hb hpairs, (latch_frame _ _).2.2.2.1, markDots_read hq hp _ _ _ hwf]
    simp only [ne_eq, hpairs, not_false_eq_true, true_and]
    rfl

end

/-! ## The halt of a sweep -/

/-- A pass whose resume columns are written from the lists due, if any are. -/
def resumed (pool : Pool) (due : Option ResumeDue) (p : Pass) : Pass :=
  match due with
  | none => p
  | some d => { p with
      resumeA := some (resumeOf pool p .a d.listA)
      resumeB := some (resumeOf pool p .b d.listB) }

theorem resumed_eq (pool : Pool) (due : Option ResumeDue) (p : Pass) : resumed pool due p =
    { p with resumeA := (resumed pool due p).resumeA, resumeB := (resumed pool due p).resumeB } := by
  cases due <;> rfl

section

variable {u : State} {e : Entry} {rest : List Entry} {p : Pass}

theorem flushResume_queue (hr : u.driver.running = none) (hq : u.queue = e :: rest) (hp : e.pass = some p) :
    (flushResume u).queue = { e with pass := some (resumed u.pool u.carriage.resumeDue p) } :: rest := by
  rcases hd : u.carriage.resumeDue with _ | d
  · rw [flushResume_of_none hd, hq, resumed, ← hp]
  · rw [flushResume_cons hd hr hq, hp]
    rfl

/-- The resume columns of the sweep halted, or of one stopped before, are written at once when no burst runs. -/
theorem haltSweep_queue (hr : u.driver.running = none) (hq : u.queue = e :: rest) (hp : e.pass = some p) :
    (haltSweep u).queue = { e with pass := some (resumed u.pool (stallDue u) p) } :: rest := by
  unfold haltSweep
  split
  · rename_i hst
    rw [stallDue, if_pos hst]
    exact flushResume_queue (u := (brakeFor .halt (dropPending u)).setCarriage
      { (brakeFor .halt (dropPending u)).carriage with resumeDue := planLists u }) hr hq hp
  · rename_i hst hbrake
    rw [stallDue, if_neg (by simp [hst])]
    exact flushResume_queue (u := u.setCarriage { u.carriage with brake := some .halt }) hr hq hp
  · rename_i hst _
    rw [stallDue, if_neg hst]
    exact flushResume_queue hr hq hp

theorem haltSweep_of_sweep (hst : u.carriage.state = .sweep) (hr : u.driver.running = none) :
    (haltSweep u).carriage =
      { u.carriage with
        state := .braking, brake := some .halt, plan := none
        chanA := Channel.empty, chanB := Channel.empty, resumeDue := none }
    ∧ (haltSweep u).driver = { u.driver with pendA := none, pendB := none } := by
  simp only [haltSweep, hst, stopSweep]
  simp [flushResume_carriage, brakeFor, dropPending, hr]

/-- The braking of a suspend goes on as that of a halt. -/
theorem haltSweep_carriage_of_suspend {reason : SuspendReason} {g : Nat} (hst : u.carriage.state = .braking)
    (hbrake : u.carriage.brake = some (.suspend reason g)) (hr : u.driver.running = none) :
    (haltSweep u).carriage = { u.carriage with brake := some .halt, resumeDue := none } := by
  simp only [haltSweep, hst, hbrake]
  simp [flushResume_carriage, hr]

theorem haltSweep_driver_of_not_sweep (hst : u.carriage.state ≠ .sweep) : (haltSweep u).driver = u.driver := by
  unfold haltSweep
  split
  · exact absurd ‹_› hst
  · simp
  · simp

/-- Elsewhere a halt leaves the carriage as it is. -/
theorem haltSweep_elsewhere (hst : u.carriage.state ≠ .sweep)
    (hbrake : u.carriage.state ≠ .braking ∨ ∀ reason g, u.carriage.brake ≠ some (.suspend reason g)) :
    haltSweep u = flushResume u := by
  unfold haltSweep
  split
  · exact absurd ‹_› hst
  · rename_i hbraking hsuspend
    exact absurd hsuspend (hbrake.resolve_left (· hbraking) _ _)
  · rfl

end

/-- The lists due are those of the sweep halted, or of one stopped before (spec/03 R61). -/
theorem stallDue_eq {s : State} {due : Option ResumeDue}
    (h : (s.carriage.state = .sweep
        ∧ ∃ pl, s.carriage.plan = some pl ∧ due = some { listA := pl.listA, listB := pl.listB })
      ∨ (s.carriage.state ≠ .sweep ∧ due = s.carriage.resumeDue)) : stallDue s = due := by
  rcases h with ⟨hst, pl, hpl, rfl⟩ | ⟨hst, rfl⟩
  · rw [stallDue, if_pos hst, planLists_of_plan hpl]
  · rw [stallDue, if_neg hst]

/-! ## A drive fault taken -/

/-- A fault raised while no paper moves. -/
theorem raiseFault_of_still {u : State} {code : FaultCode} {tag : Option Byte} {pos : Option Nat}
    (h : u.paper.motion = none) : raiseFault code tag pos u =
      { u with
        events := { u.events with latched := u.events.latched ||| 0x020#12 }
        runner :=
          { u.runner with
            fault := if u.runner.fault = none then some { code := code, tag := tag, pos := pos }
              else u.runner.fault } } := by
  rw [raiseFault_eq, stopPaper_none (by exact h)]
  rcases hfault : u.runner.fault <;> rfl

/-- DFAULT_N shows asserted. -/
def faultShown (s : State) : State := s.setPins { s.pins with driveFault := true }

/-- While no burst runs an assertion is not taken. -/
theorem found_of_free {u : State} (hr : u.driver.running = none) : found u = .next (settleTear u) := by
  rw [found, checkDriveFault_of_free hr]

/-- The dots of the groups of a running burst that are not yet issued. -/
def unfired (r : Running) : List (Nat × Nat) := (r.burst.groups.drop r.next).flatten

/-- The state in which a drive fault halts the carriage: the driver free, the dots of the unfired groups lost. -/
def faultFreed (r : Running) (s : State) : State :=
  { burstFreed s with
    queue := (loseDots r.burst (unfired r) s).queue
    pool := (loseDots r.burst (unfired r) s).pool
    events := (loseDots r.burst (unfired r) s).events }

theorem loseDots_changes (b : Burst) (pairs : List (Nat × Nat)) (s : State) : loseDots b pairs s =
    { s with
      queue := (loseDots b pairs s).queue, pool := (loseDots b pairs s).pool
      events := (loseDots b pairs s).events } := by
  unfold loseDots mapHeadPass mapHead updateHeadColumn
  (repeat' split) <;> rfl

/-- The pass of the head after a drive fault: its unfired dots counted lost, its resume columns written if due. -/
def faultPass (r : Running) (s : State) (p : Pass) : Pass :=
  resumed (loseDots r.burst (unfired r) s).pool (stallDue s) { p with dotsLost := p.dotsLost + (unfired r).length }

section

variable {s : State} {r : Running} (hr : s.driver.running = some r)

include hr

/-- A drive fault in the burst of a queued print entry. -/
theorem takeDriveFault_of_owed {e : Entry} {rest : List Entry} {p : Pass} (hb : r.burst.orphan = false)
    (hq : s.queue = e :: rest) (hp : e.pass = some p) : takeDriveFault s =
      raiseFault .headDrive (some r.burst.tag) s.carriage.pos
        { haltSweep (faultFreed r s) with
          queue := { e with state := .halted, pass := some (faultPass r s p) } :: rest
          runner := { s.runner with suspend := none } } := by
  have hfreed : burstFreed (loseDots r.burst (unfired r) s) = faultFreed r s := by
    rw [loseDots_changes]
    rfl
  have hlost : (faultFreed r s).queue = _ := loseDots_queue (pairs := unfired r) hq hp hb
  have hwritten := haltSweep_queue (u := faultFreed r s) rfl hlost rfl
  have hqueue : (haltSweep (faultFreed r s)).queue = { e with pass := some (faultPass r s p) } :: rest := hwritten
  have hrunner : (haltSweep (faultFreed r s)).runner = s.runner := by simp [faultFreed, burstFreed]
  have htake : takeDriveFault s = raiseFault .headDrive (some r.burst.tag) s.carriage.pos
      ((setHeadState .halted (haltSweep (burstFreed (loseDots r.burst (unfired r) s)))).setRunner
        { (haltSweep (burstFreed (loseDots r.burst (unfired r) s))).runner with suspend := none }) := by
    simp only [takeDriveFault, hr, hb]
    rfl
  rw [htake, hfreed, setHeadState_cons hqueue, hrunner]
  rfl

/-- A drive fault in the burst of an aborted entry that finds nothing to halt. -/
theorem takeDriveFault_of_orphan (hb : r.burst.orphan = true) (hst : s.carriage.state ≠ .sweep)
    (hbrake : ∀ reason g, s.carriage.brake ≠ some (.suspend reason g)) (hdue : s.carriage.resumeDue = none)
    (hmotion : s.paper.motion = none) : takeDriveFault s =
      { burstFreed s with
        events := { s.events with latched := s.events.latched ||| 0x020#12 }
        runner :=
          { s.runner with
            fault := if s.runner.fault = none then
                some { code := .headDrive, tag := none, pos := s.carriage.pos }
              else s.runner.fault } } := by
  have hhalt : haltSweep (burstFreed s) = burstFreed s :=
    (haltSweep_elsewhere (u := burstFreed s) hst (.inr hbrake)).trans (flushResume_of_none hdue)
  have htake : takeDriveFault s = raiseFault .headDrive none s.carriage.pos (haltSweep (burstFreed s)) := by
    simp only [takeDriveFault, hr, hb, loseDots_of_orphan hb]
    rfl
  rw [htake, hhalt, raiseFault_of_still (u := burstFreed s) hmotion]
  rfl

theorem exec_driveFault_taken {u : State} (h : takeDriveFault (faultShown s) = u) :
    exec (.driveFault true) s = .next (settleTear u) :=
  congrArg (fun v => Host.Outcome.next (settleTear v)) ((if_pos (by simp [hr])).trans h)

/-- What a drive fault in the burst of a queued print entry leaves, block by block. -/
theorem exec_driveFault_of_owed {e : Entry} {rest : List Entry} {p : Pass} (hb : r.burst.orphan = false)
    (hq : s.queue = e :: rest) (hp : e.pass = some p) :
    ∃ t, exec (.driveFault true) s = .next t
      ∧ t.driver = (haltSweep (faultFreed r (faultShown s))).driver
      ∧ t.carriage = (haltSweep (faultFreed r (faultShown s))).carriage
      ∧ t.queue = { e with state := .halted, pass := some (faultPass r (faultShown s) p) } :: rest
      ∧ t.pool = (loseDots r.burst (unfired r) (faultShown s)).pool
      ∧ t.events = { s.events with
          latched := s.events.latched ||| 0x020#12 ||| (if unfired r = [] then 0x000#12 else 0x010#12) }
      ∧ t.runner =
          { s.runner with
            suspend := none
            fault := if s.runner.fault = none then
                some { code := .headDrive, tag := some r.burst.tag, pos := s.carriage.pos }
              else s.runner.fault }
      ∧ t.paper = (stopPaper .fault s).paper
      ∧ t.pins = { s.pins with driveFault := true } ∧ t.heat = s.heat
      ∧ t.outputs = { s.outputs with pinOut := 0#24 } := by
  refine ⟨_, exec_driveFault_taken hr (takeDriveFault_of_owed (s := faultShown s) hr hb hq hp),
    by simp, by simp, by simp, by simp [faultFreed], ?_, by simp [raiseFault_runner, faultShown], ?_,
    by simp [faultFreed, burstFreed, faultShown]⟩
  · simp only [settleTear_frame, raiseFault_events, haltSweep_frame, faultFreed, loseDots_events hb]
    simp [faultShown, BitVec.or_assoc, BitVec.or_comm 0x020#12]
  · simp only [settleTear_frame, raiseFault_eq]
    exact stopPaper_paper (by simp [faultFreed, burstFreed, faultShown]) _

end

/-- Settles O40: a release, and an assertion while the driver is free, only show on the pin; a fault in a burst is taken
by whether the burst's entry has gone. -/
theorem driveFaultHaltsSweep : Obligations.DriveFaultHaltsSweep := by
  refine ⟨fun s => found_of_clear (u := s.setPins { s.pins with driveFault := false }) rfl,
    fun s hr => found_of_free (u := faultShown s) hr,
    ⟨resumeOf, resumeOf_spec, fun s r e rest p due hr hb hq hp hwf hdue => ?_⟩,
    fun s r hr hb hst hbrake hdue hmotion => ?_⟩
  · obtain ⟨t, hexec, hdriver, hcarriage, hqueue, hpool, hevents, hrunner, hpaper, hpins, hheat, houtputs⟩ :=
      exec_driveFault_of_owed hr hb hq hp
    obtain rfl : stallDue s = due := stallDue_eq hdue
    refine ⟨t, unfired r, _, faultPass r (faultShown s) p, hexec, rfl, fun hst => ?_, fun hst => ?_,
      fun reason g hst hbrake => ?_, fun hst hbrake => ?_, hqueue, rfl, rfl, rfl, rfl, rfl, resumed_eq _ _ _,
      fun d hd => ?_, fun hnone => ?_, fun k => ?_, hevents, hrunner, fun hmotion => ?_, fun m hmotion hstop => ?_,
      hpins, hheat, houtputs⟩
    · obtain ⟨hcar, hdrv⟩ := haltSweep_of_sweep (u := faultFreed r (faultShown s)) hst rfl
      exact ⟨hdriver.trans hdrv, hcarriage.trans hcar⟩
    · exact hdriver.trans (haltSweep_driver_of_not_sweep (u := faultFreed r (faultShown s)) hst)
    · exact hcarriage.trans (haltSweep_carriage_of_suspend (u := faultFreed r (faultShown s)) hst hbrake rfl)
    · rw [hcarriage, haltSweep_elsewhere (u := faultFreed r (faultShown s)) hst hbrake, flushResume_carriage]
      rfl
    · have hdue : stallDue (faultShown s) = some d := hd
      rw [hpool, faultPass, hdue]
      exact ⟨congrArg some (resumeOf_congr ⟨rfl, rfl, rfl, rfl⟩ ..),
        congrArg some (resumeOf_congr ⟨rfl, rfl, rfl, rfl⟩ ..)⟩
    · have hdue : stallDue (faultShown s) = none := hnone
      rw [faultPass, hdue]
      exact ⟨rfl, rfl⟩
    · rw [hpool]
      exact loseDots_read (s := faultShown s) hq hp hb hwf k
    · rw [hpaper, stopPaper_none hmotion]
    · rw [hpaper, stopPaper_going hmotion hstop]
      rfl
  · exact exec_driveFault_taken hr (takeDriveFault_of_orphan (s := faultShown s) hr hb hst hbrake hdue hmotion)

end Sys2Proof.Machine
end

section
/-! What a step keeps: the line and its requests once for every invariant, and whether the queue is empty. -/

namespace Sys2Proof.Machine

/-! ## The owners of the requests -/

/-- What can answer a request: the owner of its kind, or a refusal. -/
inductive Owner : (State → Verdict) → Prop
  | refuse (c : ResultCode) : Owner (refuse c)
  | identify : Owner reqIdentify
  | getStatus : Owner reqGetStatus
  | readEvents : Owner reqReadEvents
  | setAttnMask (mask : Word) : Owner (reqSetAttnMask mask)
  | reset : Owner reqReset
  | setMech (r : MechRequest) : Owner (reqSetMech r)
  | setPinMap (outs : List Byte) : Owner (reqSetPinMap outs)
  | defineForm (r : FormRequest) : Owner (reqDefineForm r)
  | readForm (slot : Byte) : Owner (reqReadForm slot)
  | selectForm (slot : Byte) : Owner (reqSelectForm slot)
  | setTof : Owner reqSetTof
  | openPass (r : PassRequest) : Owner (reqOpenPass r)
  | image (tag : Byte) (o : Half) (k : Byte) (data : List Byte) : Owner (reqImage tag o k data)
  | closePass (tag : Byte) : Owner (reqClosePass tag)
  | queueAdvance (tag : Byte) (n : Half) (flags : Byte) : Owner (reqQueueAdvance tag n flags)
  | cancelEntry (tag : Byte) : Owner (reqCancelEntry tag)
  | pause : Owner reqPause
  | resume : Owner reqResume
  | abort : Owner reqAbort
  | clearFault : Owner reqClearFault
  | home : Owner reqHome

theorem Owner.noPayload {owner : State → Verdict} (h : Owner owner) (payload : List Byte) :
    Owner (Machine.noPayload owner payload) := by
  cases payload with
  | nil => exact h
  | cons => exact .refuse _

theorem Owner.onePayload {owner : Byte → State → Verdict} (h : ∀ b, Owner (owner b)) (payload : List Byte) :
    Owner (Machine.onePayload owner payload) := by
  unfold Machine.onePayload
  split
  · exact h _
  · exact .refuse _

theorem Owner.readPayload {α : Type} {read : List Byte → Option α} {owner : α → State → Verdict}
    (h : ∀ r, Owner (owner r)) (payload : List Byte) : Owner (Machine.readPayload read owner payload) := by
  unfold Machine.readPayload
  split
  · exact h _
  · exact .refuse _

theorem Owner.imagePayload (payload : List Byte) : Owner (Machine.imagePayload payload) := by
  unfold Machine.imagePayload
  split
  · exact .image _ _ _ _
  · exact .refuse _

theorem Owner.advancePayload (payload : List Byte) : Owner (Machine.advancePayload payload) := by
  unfold Machine.advancePayload
  split
  · exact .queueAdvance _ _ _
  · exact .refuse _

theorem owner_ownerOf (kind : Byte) (payload : List Byte) : Owner (ownerOf kind payload) := by
  unfold ownerOf
  split
  · exact Owner.identify.noPayload _
  · exact Owner.getStatus.noPayload _
  · exact Owner.readEvents.noPayload _
  · exact .readPayload .setAttnMask _
  · exact Owner.reset.noPayload _
  · exact .readPayload .setMech _
  · exact .setPinMap _
  · exact .readPayload .defineForm _
  · exact .onePayload .readForm _
  · exact .onePayload .selectForm _
  · exact Owner.setTof.noPayload _
  · exact .readPayload .openPass _
  · exact .imagePayload _
  · exact .onePayload .closePass _
  · exact .advancePayload _
  · exact .onePayload .cancelEntry _
  · exact Owner.pause.noPayload _
  · exact Owner.resume.noPayload _
  · exact Owner.abort.noPayload _
  · exact Owner.clearFault.noPayload _
  · exact Owner.home.noPayload _
  · exact .refuse _

/-! ## The line -/

/-- The state without the line: the Link Port, its byte-gap timer, and the Event Unit. -/
def offLine (s : State) : State :=
  ((s.setLink State.reset.link).setEvents Events.reset).setTime { s.time with byteGap := none }

@[simp] theorem offLine_setLink (s : State) (x : Link) : offLine (s.setLink x) = offLine s := rfl
@[simp] theorem offLine_latch (e : Event) (s : State) : offLine (latch e s) = offLine s := rfl
@[simp] theorem offLine_queueReply (f : List Byte) (s : State) : offLine (queueReply f s) = offLine s := rfl
@[simp] theorem offLine_clearAssembler (s : State) : offLine (clearAssembler s) = offLine s := rfl
@[simp] theorem offLine_storeByte (b : Byte) (a : Assembler) (s : State) : offLine (storeByte b a s) = offLine s := rfl

@[simp] theorem offLine_rejectFrame (r : Byte) (s : State) : offLine (rejectFrame r s) = offLine s := by
  unfold rejectFrame; dsimp only; (repeat' split) <;> simp

/-- A property that the line does not touch and that every request's owner keeps, outside a reset held by RESET_N. -/
structure LineInvariant (P : State → Prop) : Prop where
  offLine : ∀ s, P (offLine s) ↔ P s
  request : ∀ {owner : State → Verdict}, Owner owner → ∀ s, s.pins.resetLow = false → P s →
    P (owner s).state

section
variable {P : State → Prop} (h : LineInvariant P) {s t : State}

include h

theorem LineInvariant.of_line (hs : P s) (ht : Machine.offLine t = Machine.offLine s) : P t :=
  (h.offLine t).1 (ht ▸ (h.offLine s).2 hs)

theorem LineInvariant.takeRequest (hs : P s) {kind : Byte} {owner : State → Verdict} (howner : Owner owner) :
    P (takeRequest kind owner s) := by
  unfold Machine.takeRequest
  split
  · exact hs
  · rename_i hlow
    split
    · exact hs
    split
    · exact h.of_line hs (offLine_latch _ _)
    · exact h.of_line (h.request howner s (Bool.eq_false_iff.2 hlow) hs) (offLine_queueReply _ _)

theorem LineInvariant.frameComplete (hs : P s) (b : Byte) : P (frameComplete b s) := by
  unfold Machine.frameComplete
  split
  · unfold Machine.completeFrame
    dsimp only
    split
    · exact h.takeRequest (h.of_line hs (offLine_clearAssembler s)) (owner_ownerOf _ _)
    · exact h.of_line hs (offLine_rejectFrame _ s)
  · exact hs

theorem LineInvariant.lengthFault (hs : P s) (b : Byte) : P (lengthFault b s) := by
  unfold Machine.lengthFault
  split
  · exact h.of_line hs (offLine_rejectFrame _ s)
  · exact hs

theorem LineInvariant.lineFault (hs : P s) : P (lineFault s) := by
  unfold Machine.lineFault
  split
  · exact h.of_line hs (offLine_rejectFrame _ s)
  · exact hs

theorem LineInvariant.byteGapTimerExpiry (hs : P s) : P (byteGapTimerExpiry s) := by
  unfold Machine.byteGapTimerExpiry
  split
  · exact h.of_line hs (offLine_rejectFrame _ s)
  · exact hs

theorem LineInvariant.byteReceived (hs : P s) (b : Byte) : P (byteReceived b s) := by
  unfold Machine.byteReceived
  split
  · exact hs
  · split <;> split
    case h_1.isFalse => exact hs
    case h_2.isTrue => exact h.lengthFault hs b
    case h_4.isTrue => exact h.frameComplete hs b
    all_goals exact h.of_line hs (by simp)

end

/-- The commands of the line: bytes and faults, and the requests. -/
def onLine : Instr → Bool
  | .frameComplete _ => true
  | .lengthFault _ => true
  | .lineFault => true
  | .byteGapTimerExpiry => true
  | .byteReceived _ => true
  | c => (requestKind c).isSome

theorem LineInvariant.exec {P : State → Prop} (h : LineInvariant P) {s : State} (hs : P s) {c : Instr}
    (hc : onLine c = true) : ∃ t, exec c s = .next t ∧ P t := by
  cases c with
  | frameComplete b => exact ⟨_, rfl, h.frameComplete hs b⟩
  | lengthFault b => exact ⟨_, rfl, h.lengthFault hs b⟩
  | lineFault => exact ⟨_, rfl, h.lineFault hs⟩
  | byteGapTimerExpiry => exact ⟨_, rfl, h.byteGapTimerExpiry hs⟩
  | byteReceived b => exact ⟨_, rfl, h.byteReceived hs b⟩
  | identify => exact ⟨_, rfl, h.takeRequest hs .identify⟩
  | getStatus => exact ⟨_, rfl, h.takeRequest hs .getStatus⟩
  | readEvents => exact ⟨_, rfl, h.takeRequest hs .readEvents⟩
  | setAttnMask mask => exact ⟨_, rfl, h.takeRequest hs (.setAttnMask mask)⟩
  | reset => exact ⟨_, rfl, h.takeRequest hs .reset⟩
  | setMech r => exact ⟨_, rfl, h.takeRequest hs (.setMech r)⟩
  | setPinMap outs => exact ⟨_, rfl, h.takeRequest hs (.setPinMap outs)⟩
  | defineForm r => exact ⟨_, rfl, h.takeRequest hs (.defineForm r)⟩
  | readForm slot => exact ⟨_, rfl, h.takeRequest hs (.readForm slot)⟩
  | selectForm slot => exact ⟨_, rfl, h.takeRequest hs (.selectForm slot)⟩
  | setTof => exact ⟨_, rfl, h.takeRequest hs .setTof⟩
  | openPass r => exact ⟨_, rfl, h.takeRequest hs (.openPass r)⟩
  | image tag o k data => exact ⟨_, rfl, h.takeRequest hs (.image tag o k data)⟩
  | closePass tag => exact ⟨_, rfl, h.takeRequest hs (.closePass tag)⟩
  | queueAdvance tag n flags => exact ⟨_, rfl, h.takeRequest hs (.queueAdvance tag n flags)⟩
  | cancelEntry tag => exact ⟨_, rfl, h.takeRequest hs (.cancelEntry tag)⟩
  | pause => exact ⟨_, rfl, h.takeRequest hs .pause⟩
  | resume => exact ⟨_, rfl, h.takeRequest hs .resume⟩
  | abort => exact ⟨_, rfl, h.takeRequest hs .abort⟩
  | clearFault => exact ⟨_, rfl, h.takeRequest hs .clearFault⟩
  | home => exact ⟨_, rfl, h.takeRequest hs .home⟩
  | _ => cases hc

/-- A property that does not depend on the waiting commands and that every command keeps is kept by every step. -/
theorem step_keeps {P : State → Prop} (hpending : ∀ s q, P s → P (s.setPending q))
    (hexec : ∀ c s, P s → ∃ t, exec c s = .next t ∧ P t) {s t : State} (hs : P s) (h : step s = .next t) :
    P t := by
  unfold step at h
  split at h
  · obtain rfl := Host.Outcome.next.inj h
    exact hs
  · rename_i c rest _
    obtain ⟨u, hu, hkept⟩ := hexec c _ (hpending s rest hs)
    obtain rfl := Host.Outcome.next.inj (hu.symm.trans h)
    exact hkept

/-! ## Whether the queue is empty -/

theorem QueueKept.isEmpty {α : Type} {view : Pass → α} {q r : List Entry} (h : QueueKept view q r) :
    r.isEmpty = q.isEmpty := by cases h <;> rfl

theorem Kept.isEmpty {s t : State} (h : Kept s t) : t.queue.isEmpty = s.queue.isEmpty := h.queue.isEmpty

theorem Quiet.isEmpty {s t : State} (h : Quiet s t) : t.queue.isEmpty = s.queue.isEmpty := h.queue.isEmpty

@[simp] theorem isEmpty_mapHead (f : Entry → Entry) (s : State) :
    (mapHead f s).queue.isEmpty = s.queue.isEmpty := by
  unfold mapHead
  split
  · rfl
  · rename_i h; rw [h]; rfl

@[simp] theorem isEmpty_mapHeadPass (f : Pass → Pass) (s : State) :
    (mapHeadPass f s).queue.isEmpty = s.queue.isEmpty := isEmpty_mapHead _ s

@[simp] theorem isEmpty_setHeadState (st : EntryState) (s : State) :
    (setHeadState st s).queue.isEmpty = s.queue.isEmpty := isEmpty_mapHead _ s

@[simp] theorem isEmpty_closeOpen (q : List Entry) : (closeOpen q).isEmpty = q.isEmpty := by simp [closeOpen]

@[simp] theorem isEmpty_updateEntry (q : List Entry) (tag : Byte) (f : Entry → Entry) :
    (updateEntry q tag f).isEmpty = q.isEmpty := by simp [updateEntry]

@[simp] theorem isEmpty_flushResume (s : State) : (flushResume s).queue.isEmpty = s.queue.isEmpty :=
  (Quiet.refl s).flushResume.isEmpty

@[simp] theorem isEmpty_stopSweep (c : BrakeCause) (s : State) :
    (stopSweep c s).queue.isEmpty = s.queue.isEmpty := (Quiet.refl s).stopSweep.isEmpty

@[simp] theorem isEmpty_suspendTrigger (r : SuspendReason) (s : State) :
    (suspendTrigger r s).queue.isEmpty = s.queue.isEmpty := (Quiet.refl s).suspendTrigger.isEmpty

@[simp] theorem isEmpty_checkSweepEnd (s : State) : (checkSweepEnd s).queue.isEmpty = s.queue.isEmpty :=
  (Quiet.refl s).checkSweepEnd.isEmpty

@[simp] theorem isEmpty_carriageLost (s : State) : (carriageLost s).queue.isEmpty = s.queue.isEmpty :=
  (Quiet.refl s).carriageLost.isEmpty

@[simp] theorem isEmpty_finishBraking (s : State) : (finishBraking s).queue.isEmpty = s.queue.isEmpty :=
  (Quiet.refl s).finishBraking.isEmpty

@[simp] theorem isEmpty_restDetected (s : State) : (restDetected s).queue.isEmpty = s.queue.isEmpty :=
  (Quiet.refl s).restDetected.isEmpty

@[simp] theorem isEmpty_haltSweep (s : State) : (haltSweep s).queue.isEmpty = s.queue.isEmpty :=
  (Quiet.refl s).haltSweep.isEmpty

@[simp] theorem isEmpty_coverOpens (s : State) : (coverOpens s).queue.isEmpty = s.queue.isEmpty :=
  (Quiet.refl s).coverOpens.isEmpty

@[simp] theorem isEmpty_windowTimerExpiry (s : State) : (windowTimerExpiry s).queue.isEmpty = s.queue.isEmpty :=
  (Quiet.refl s).windowTimerExpiry.isEmpty

@[simp] theorem isEmpty_giveRetract (s : State) : (giveRetract s).queue.isEmpty = s.queue.isEmpty :=
  (Quiet.refl s).giveRetract.isEmpty

@[simp] theorem isEmpty_prep (s : State) : (prep s).queue.isEmpty = s.queue.isEmpty := (Quiet.refl s).prep.isEmpty

@[simp] theorem isEmpty_heatCheck (s : State) : (heatCheck s).queue.isEmpty = s.queue.isEmpty :=
  (Quiet.refl s).heatCheck.isEmpty

@[simp] theorem isEmpty_resumeSuspended (s : State) : (resumeSuspended s).queue.isEmpty = s.queue.isEmpty :=
  (Quiet.refl s).resumeSuspended.isEmpty

@[simp] theorem isEmpty_loseDots (b : Burst) (pairs : List (Nat × Nat)) (s : State) :
    (loseDots b pairs s).queue.isEmpty = s.queue.isEmpty := (kept_loseDots b pairs s).isEmpty

@[simp] theorem isEmpty_fireDots (b : Burst) (pairs : List (Nat × Nat)) (s : State) :
    (fireDots b pairs s).queue.isEmpty = s.queue.isEmpty := by
  rw [fireDots_eq]
  split
  · rfl
  · exact (kept_markDots _ _ _ s).isEmpty

@[simp] theorem isEmpty_takeMatch (ch : Chan) (c : Nat) (s : State) :
    (takeMatch ch c s).queue.isEmpty = s.queue.isEmpty := by
  unfold takeMatch; dsimp only; (repeat' split) <;> simp

@[simp] theorem isEmpty_handMatch (ch : Chan) (hit : Option Elem) (s : State) :
    (handMatch ch hit s).queue.isEmpty = s.queue.isEmpty := by
  unfold handMatch; split <;> simp

@[simp] theorem isEmpty_burstSlot (s : State) : (burstSlot s).queue.isEmpty = s.queue.isEmpty := by
  unfold burstSlot; dsimp only; (repeat' split) <;> simp

@[simp] theorem isEmpty_takeUp (s : State) : (takeUp s).queue.isEmpty = s.queue.isEmpty := by
  unfold takeUp startHead; dsimp only; (repeat' split) <;> simp

@[simp] theorem isEmpty_masking (s : State) : (masking s).queue.isEmpty = s.queue.isEmpty := by
  unfold masking; split <;> simp

@[simp] theorem isEmpty_position (s : State) : (position s).queue.isEmpty = s.queue.isEmpty := by
  unfold position planHead; (repeat' split) <;> simp

@[simp] theorem isEmpty_lookAheadPlan (s : State) : (lookAheadPlan s).queue.isEmpty = s.queue.isEmpty := by
  unfold lookAheadPlan
  split
  · rename_i hq; rw [hq]; (repeat' split) <;> simp [hq]
  · rfl

end Sys2Proof.Machine
end

section
/-! The tear timer: what its conditions read, and that every command keeps it running exactly while they hold. -/

namespace Sys2Proof.Machine

/-! ## The conditions (spec/05 R110) -/

theorem tearIdleOf_ne_zero_iff (p : Profile) :
    tearIdleOf p ≠ 0 ↔ p.path = .tractor ∧ (p.tear.map Tear.idle).getD 0 ≠ 0 := by
  unfold tearIdleOf
  split <;> rename_i hpath <;> simp [hpath]

theorem tearReady_iff (s : State) : tearReady s = true ↔
    s.pins.resetLow = false ∧ (activeProfile s).path = .tractor
      ∧ ((activeProfile s).tear.map Tear.idle).getD 0 ≠ 0 ∧ s.queue = [] ∧ s.paper.state = .idle
      ∧ (s.carriage.state = .idle ∨ s.carriage.state = .unhomed) ∧ s.runner.fault = none
      ∧ s.runner.pause = false := by
  rw [← CarState.atRest_iff, ← and_assoc (a := (activeProfile s).path = .tractor), ← tearIdleOf_ne_zero_iff]
  simp [tearReady, carriageAtRest, and_assoc]

theorem tearIdleOf_of_ready {s : State} (h : tearReady s = true) :
    tearIdleOf (activeProfile s) = ((activeProfile s).tear.map Tear.idle).getD 0 := by
  simp only [tearIdleOf, path_of_tearReady h]

theorem settleTear_eq (s : State) : settleTear s = s.setTime { s.time with
    tearIdle := if tearReady s then
        some (s.time.tearIdle.getD (100 * ((activeProfile s).tear.map Tear.idle).getD 0))
      else none } := by
  by_cases h : tearReady s = true
  · rw [if_pos h, ← tearIdleOf_of_ready h]
    cases ht : s.time.tearIdle with
    | none => rw [settleTear_start h ht]; rfl
    | some n => rw [settleTear_running h ht, Option.getD_some, ← ht]; rfl
  · rw [if_neg h, settleTear_of_not (Bool.eq_false_iff.2 h)]

/-! ## A timer that agrees with its conditions -/

/-- The tear timer runs exactly while its conditions hold. -/
def TearSettled (s : State) : Prop := s.time.tearIdle ≠ none ↔ tearReady s = true

/-- Settling changes nothing that the conditions read. -/
theorem tearReady_settleTear (s : State) : tearReady (settleTear s) = tearReady s := by
  simp [tearReady, activeProfile, carriageAtRest]

theorem tearSettled_settleTear (s : State) : TearSettled (settleTear s) := by
  rw [TearSettled, tearReady_settleTear, settleTear_eq]
  by_cases h : tearReady s = true <;> simp [h]

/-- What the conditions read, and whether the timer runs. -/
structure TearView where
  resetLow : Bool
  profile : Profile
  empty : Bool
  paper : PaperState
  atRest : Bool
  fault : Option FaultRecord
  pause : Bool
  running : Bool

def tearView (s : State) : TearView where
  resetLow := s.pins.resetLow
  profile := activeProfile s
  empty := s.queue.isEmpty
  paper := s.paper.state
  atRest := carriageAtRest s
  fault := s.runner.fault
  pause := s.runner.pause
  running := s.time.tearIdle.isSome

section
variable {s t : State}

theorem TearSettled.of_view (h : TearSettled s) (ht : tearView t = tearView s) : TearSettled t := by
  obtain ⟨hlow, hprofile, hempty, hpaper, hrest, hfault, hpause, hrun⟩ := TearView.mk.inj ht
  have hready : tearReady t = tearReady s := by
    simp only [tearReady, hlow, hprofile, hempty, hpaper, hrest, hfault, hpause]
  rw [TearSettled, hready, ← Option.isSome_iff_ne_none, hrun, Option.isSome_iff_ne_none]
  exact h

/-- While an entry is queued the timer stands still, whatever the act does beside. -/
theorem TearSettled.of_queued (h : TearSettled s) (hs : s.queue.isEmpty = false)
    (ht : t.queue.isEmpty = s.queue.isEmpty) (htime : t.time.tearIdle = s.time.tearIdle) : TearSettled t := by
  have hready : ∀ u : State, u.queue.isEmpty = false → tearReady u = false := fun u hu => by simp [tearReady, hu]
  rw [TearSettled, hready s hs] at h
  rw [TearSettled, hready t (ht.trans hs), htime]
  exact h

end

@[simp] theorem tearView_setMech (s : State) (x : Mech) : tearView (s.setMech x) = tearView s := rfl
@[simp] theorem tearView_setDriver (s : State) (x : Driver) : tearView (s.setDriver x) = tearView s := rfl
@[simp] theorem tearView_setEvents (s : State) (x : Events) : tearView (s.setEvents x) = tearView s := rfl

@[simp] theorem startWindow_tearIdle (s : State) : (startWindow s).time.tearIdle = s.time.tearIdle := rfl
@[simp] theorem stopWindow_tearIdle (s : State) : (stopWindow s).time.tearIdle = s.time.tearIdle := rfl

@[simp] theorem approachOrder_tearIdle (n : Nat) (s : State) : (approachOrder n s).time.tearIdle = s.time.tearIdle := by
  unfold approachOrder; split <;> rfl

/-! ## Requests -/

/-- A definition stored in a slot that is not the active one leaves the active profile. -/
theorem activeProfile_setOther {s : State} {slot : Nat} (h : slot ≠ s.forms.active) (p : Profile) :
    activeProfile (s.setForms { s.forms with slots := s.forms.slots.set slot (some p) }) = activeProfile s := by
  simp [activeProfile, List.getElem?_set_ne h]

theorem TearSettled.storeForm {s : State} (h : TearSettled s) (slot : Nat) (p : Profile) :
    TearSettled (storeForm slot p s) := by
  unfold Machine.storeForm
  dsimp only
  split
  · exact tearSettled_settleTear _
  · rename_i hslot
    exact h.of_view (by simp [tearView, activeProfile_setOther hslot, carriageAtRest])

theorem TearSettled.defineForm {s : State} (h : TearSettled s) (r : FormRequest) :
    TearSettled (reqDefineForm r s).state := by
  unfold reqDefineForm
  split
  · exact h
  split
  · exact h
  split
  · exact h
  split
  · split
    · exact h
    dsimp only
    split
    · exact h
    · exact h.storeForm _ _
  · exact h

theorem TearSettled.cancelEntry {s : State} (h : TearSettled s) (tag : Byte) :
    TearSettled (reqCancelEntry tag s).state := by
  unfold reqCancelEntry
  split
  · exact h
  split
  case h_1 => exact tearSettled_settleTear _
  case h_2 =>
    split
    · exact h
    · exact tearSettled_settleTear _
  all_goals exact h

/-- An owner leaves what the conditions read, or settles the timer at its end. -/
theorem TearSettled.owner {s : State} (h : TearSettled s) {owner : State → Verdict} (howner : Owner owner) :
    TearSettled (owner s).state := by
  cases howner with
  | refuse | identify | getStatus | readEvents | setAttnMask | reset => exact h
  | pause | resume | abort => exact tearSettled_settleTear _
  | setMech r => unfold reqSetMech; (repeat' split) <;> exact h.of_view (by simp)
  | setPinMap outs => unfold reqSetPinMap; (repeat' split) <;> exact h.of_view (by simp)
  | readForm slot => unfold reqReadForm; (repeat' split) <;> exact h
  | defineForm r => exact h.defineForm r
  | selectForm slot =>
    unfold reqSelectForm
    split
    · exact h
    split
    · exact h
    split
    · exact h
    · exact tearSettled_settleTear _
  | setTof =>
    unfold reqSetTof
    split
    · exact h
    · exact tearSettled_settleTear _
  | openPass r =>
    unfold reqOpenPass
    split
    · split
      · exact h
      split
      · exact h
      split
      · exact h
      · exact tearSettled_settleTear _
    · exact h
  | image tag o k data =>
    unfold reqImage carryImage
    dsimp only
    (repeat' split) <;> exact h.of_view (by simp [tearView, activeProfile, carriageAtRest])
  | closePass tag =>
    unfold reqClosePass
    (repeat' split) <;> exact h.of_view (by simp [tearView, activeProfile, carriageAtRest])
  | queueAdvance tag n flags =>
    unfold reqQueueAdvance
    split
    · exact h
    split
    · exact h
    · exact tearSettled_settleTear _
  | cancelEntry tag => exact h.cancelEntry tag
  | clearFault =>
    unfold reqClearFault
    split
    · exact h
    split
    · exact h
    dsimp only
    split
    · exact tearSettled_settleTear _
    · exact tearSettled_settleTear _
  | home =>
    unfold reqHome
    split
    · exact h
    split
    · exact h
    · exact tearSettled_settleTear _

theorem lineInvariant_tearSettled : LineInvariant TearSettled :=
  ⟨fun _ => Iff.rfl, fun howner _ _ h => h.owner howner⟩

/-! ## The other commands -/

section
variable {s : State}

theorem TearSettled.resetNAssert (h : TearSettled s) : TearSettled (resetNAssert s) := by
  unfold Machine.resetNAssert
  split
  · exact h
  · simp [TearSettled, tearReady, warmValues]

theorem TearSettled.resetNRelease (h : TearSettled s) (b a : Bool) : TearSettled (resetNRelease b a s) := by
  unfold Machine.resetNRelease
  split
  · exact tearSettled_settleTear _
  · exact h

theorem TearSettled.warmReset (h : TearSettled s) (b a : Bool) : TearSettled (warmReset b a s) := by
  unfold Machine.warmReset
  split
  · exact tearSettled_settleTear _
  · exact h

theorem TearSettled.replySent (h : TearSettled s) : TearSettled (replySent s) := by
  unfold Machine.replySent
  split
  · exact h.warmReset _ _
  · exact h

@[simp] theorem tickTimer_isSome (x : Option Nat) : (tickTimer x).isSome = x.isSome := by cases x <;> rfl

/-- A running timer still runs after a tick. -/
@[simp] theorem tearView_msTick (s : State) : tearView (msTick s) = tearView s := by
  simp [tearView, msTick, activeProfile, carriageAtRest]

@[simp] theorem tearView_coolingTick (s : State) : tearView (coolingTick s) = tearView s := by
  unfold coolingTick; dsimp only; (repeat' split) <;> rfl

@[simp] theorem tearView_windowTimerExpiry (s : State) : tearView (windowTimerExpiry s) = tearView s := by
  unfold windowTimerExpiry; split <;> simp [tearView, activeProfile, carriageAtRest]

@[simp] theorem tearView_brakeRampEnd (s : State) : tearView (brakeRampEnd s) = tearView s := by
  unfold brakeRampEnd; split <;> rfl

@[simp] theorem tearView_homeSensorChange (covered : Bool) (s : State) :
    tearView (homeSensorChange covered s) = tearView s := by
  unfold homeSensorChange; dsimp only; (repeat' split) <;> rfl

/-- A sweep or a run-up that is stopped brakes, and so does not come to rest. -/
@[simp] theorem carriageAtRest_suspendTrigger (r : SuspendReason) (s : State) :
    carriageAtRest (suspendTrigger r s) = carriageAtRest s := by
  unfold suspendTrigger
  split
  · rename_i hst
    split
    · rfl
    · simp [carriageAtRest, hst, stopSweep, flushResume_carriage, brakeFor, CarState.atRest]
  · rename_i hst
    simp [carriageAtRest, hst, brakeFor, CarState.atRest]
  · rfl

@[simp] theorem tearView_suspendTrigger (r : SuspendReason) (s : State) :
    tearView (suspendTrigger r s) = tearView s := by
  simp [tearView, activeProfile]

@[simp] theorem tearView_fireDots (b : Burst) (pairs : List (Nat × Nat)) (s : State) :
    tearView (fireDots b pairs s) = tearView s := by simp [tearView, activeProfile, carriageAtRest]

@[simp] theorem tearView_burstSlot (s : State) : tearView (burstSlot s) = tearView s := by
  unfold burstSlot
  split
  · rfl
  split
  · dsimp only
    split
    · rw [tearView_suspendTrigger]
      exact tearView_fireDots _ _ s
    · exact tearView_fireDots _ _ s
  · rfl

@[simp] theorem tearView_coverOpens (s : State) : tearView (coverOpens s) = tearView s := by
  unfold coverOpens
  split
  · rfl
  · rw [tearView_suspendTrigger]; rfl

@[simp] theorem tearView_paperGone (s : State) : tearView (paperGone s) = tearView s := by
  unfold paperGone; dsimp only; (repeat' split) <;> rfl

@[simp] theorem tearView_entryAborted (s : State) : tearView (entryAborted s) = tearView s := by
  unfold entryAborted; split <;> rfl

theorem TearSettled.tearIdleTimerExpiry (h : TearSettled s) : TearSettled (tearIdleTimerExpiry s) := by
  unfold Machine.tearIdleTimerExpiry
  split
  · dsimp only
    split
    · exact tearSettled_settleTear _
    · exact tearSettled_settleTear _
  · exact h

theorem TearSettled.stallTimerExpiry (h : TearSettled s) : TearSettled (stallTimerExpiry s) := by
  unfold Machine.stallTimerExpiry
  split
  · exact tearSettled_settleTear _
  · exact h

theorem TearSettled.restDetected (h : TearSettled s) : TearSettled (restDetected s) := by
  unfold Machine.restDetected
  split
  · split
    · split
      · exact tearSettled_settleTear _
      · exact h
    · split
      · exact tearSettled_settleTear _
      · exact h.of_view rfl
    · exact tearSettled_settleTear _
    · exact h
  · exact h

theorem TearSettled.burstEnd (h : TearSettled s) : TearSettled (burstEnd s) := by
  unfold Machine.burstEnd
  split
  · exact h
  split
  · exact tearSettled_settleTear _
  · exact h

theorem TearSettled.paperBack (h : TearSettled s) : TearSettled (paperBack s) := by
  unfold Machine.paperBack
  split
  · exact h
  dsimp only
  split
  · exact h.of_view rfl
  · exact tearSettled_settleTear _

/-- A feed unit leaves the paper in motion, unless it stops it at the end of the paper. -/
theorem TearSettled.feedUnit (h : TearSettled s) : TearSettled (feedUnit s) := by
  unfold Machine.feedUnit
  split
  · exact h
  split
  · dsimp only
    split
    · exact h.of_view rfl
    split
    · exact tearSettled_settleTear _
    · exact h.of_view rfl
  · exact h

theorem TearSettled.paperMotionComplete (h : TearSettled s) : TearSettled (paperMotionComplete s) := by
  unfold Machine.paperMotionComplete
  split
  · exact h
  split
  · exact tearSettled_settleTear _
  split
  · exact tearSettled_settleTear _
  · exact h

/-! ### The runner

Its acts need a head entry, which keeps the timer stopped before and after. -/

theorem headPrint_of_empty (h : s.queue.isEmpty = true) (st : EntryState) : headPrint s st = false := by
  simp [headPrint, List.isEmpty_iff.1 h]

theorem TearSettled.of_head (h : TearSettled s) {t : State} (hnone : s.queue.isEmpty = true → t = s)
    (ht : t.queue.isEmpty = s.queue.isEmpty := by simp) (htime : t.time.tearIdle = s.time.tearIdle := by simp) :
    TearSettled t := by
  by_cases hq : s.queue.isEmpty = true
  · rw [hnone hq]; exact h
  · exact h.of_queued (Bool.eq_false_iff.2 hq) ht htime

theorem TearSettled.position (h : TearSettled s) : TearSettled (position s) := by
  unfold Machine.position
  split
  · rename_i hcond
    obtain ⟨-, -, hhead, -⟩ := hcond
    split
    · exact tearSettled_settleTear _
    · rename_i e _ hq
      split
      · unfold planHead
        (repeat' split) <;> exact h.of_head (fun hnone => absurd hhead (by simp [headPrint_of_empty hnone]))
      · exact h
    · exact h
  · exact h

@[simp] theorem sweepOrder_tearIdle (s : State) : (sweepOrder s).time.tearIdle = s.time.tearIdle := by
  unfold sweepOrder; (repeat' split) <;> simp [giveSweep, startStall]

@[simp] theorem lookAheadPlan_tearIdle (s : State) : (lookAheadPlan s).time.tearIdle = s.time.tearIdle := by
  unfold lookAheadPlan; (repeat' split) <;> simp

theorem sweepOrder_of_empty (h : s.queue.isEmpty = true) : sweepOrder s = s := by
  unfold sweepOrder
  split <;> simp [headPrint_of_empty h]

theorem heatCheckDue_of_empty (h : s.queue.isEmpty = true) : heatCheckDue s = false := by
  simp [heatCheckDue, headPrint_of_empty h]

theorem TearSettled.advanceOrder (h : TearSettled s) : TearSettled (advanceOrder s) := by
  unfold Machine.advanceOrder
  split
  · exact h
  split
  · exact h
  split
  · exact tearSettled_settleTear _
  · exact h

theorem TearSettled.advanceEntryOrder (h : TearSettled s) : TearSettled (advanceEntryOrder s) := by
  unfold Machine.advanceEntryOrder
  split
  · exact h
  split
  · exact tearSettled_settleTear _
  · exact h

/-! ### Every command -/

theorem TearSettled.exec (h : TearSettled s) (c : Instr) : ∃ t, exec c s = .next t ∧ TearSettled t := by
  cases c with
  | powerOnReset l => exact ⟨_, rfl, tearSettled_settleTear _⟩
  | resetNAssert => exact ⟨_, rfl, h.resetNAssert⟩
  | resetNRelease b a => exact ⟨_, rfl, h.resetNRelease b a⟩
  | warmReset b a => exact ⟨_, rfl, h.warmReset b a⟩
  | replySent => exact ⟨_, rfl, h.replySent⟩
  | msTick => exact ⟨_, rfl, h.of_view (tearView_msTick s)⟩
  | coolingTick => exact ⟨_, rfl, h.of_view (tearView_coolingTick s)⟩
  | windowTimerExpiry => exact ⟨_, rfl, h.of_view (tearView_windowTimerExpiry s)⟩
  | tearIdleTimerExpiry => exact ⟨_, rfl, h.tearIdleTimerExpiry⟩
  | stallTimerExpiry => exact ⟨_, rfl, h.stallTimerExpiry⟩
  | restDetected => exact ⟨_, rfl, h.restDetected⟩
  | brakeRampEnd => exact ⟨_, rfl, h.of_view (tearView_brakeRampEnd s)⟩
  | encoderEdge q => exact ⟨_, rfl, tearSettled_settleTear _⟩
  | homeSensorChange covered => exact ⟨_, rfl, h.of_view (tearView_homeSensorChange covered s)⟩
  | burstSlot => exact ⟨_, rfl, h.of_view (tearView_burstSlot s)⟩
  | burstEnd => exact ⟨_, rfl, h.burstEnd⟩
  | driveFault asserted => exact ⟨_, rfl, tearSettled_settleTear _⟩
  | coverOpen => exact ⟨_, rfl, h.of_view (tearView_coverOpens s)⟩
  | coverClose => exact ⟨_, rfl, h.of_view rfl⟩
  | paperSnsNoPaper => exact ⟨_, rfl, h.of_view (tearView_paperGone s)⟩
  | paperSnsPaper => exact ⟨_, rfl, h.paperBack⟩
  | feedUnit => exact ⟨_, rfl, h.feedUnit⟩
  | paperMotionComplete => exact ⟨_, rfl, h.paperMotionComplete⟩
  | takeUp => exact ⟨_, rfl, h.of_head fun hq => by simp [takeUp, List.isEmpty_iff.1 hq]⟩
  | prep => exact ⟨_, rfl, h.of_head fun hq => by simp [prep, headPrint_of_empty hq]⟩
  | masking => exact ⟨_, rfl, h.of_head fun hq => by simp [masking, headPrint_of_empty hq]⟩
  | heatCheck => exact ⟨_, rfl, h.of_head fun hq => by simp [heatCheck, heatCheckDue_of_empty hq]⟩
  | position => exact ⟨_, rfl, h.position⟩
  | sweepOrder => exact ⟨_, rfl, h.of_head sweepOrder_of_empty⟩
  | resumeSuspended => exact ⟨_, rfl, h.of_head fun hq => by simp [resumeSuspended, headPrint_of_empty hq]⟩
  | advanceOrder => exact ⟨_, rfl, h.advanceOrder⟩
  | advanceEntryOrder => exact ⟨_, rfl, h.advanceEntryOrder⟩
  | lookAheadPlan => exact ⟨_, rfl, h.of_head fun hq => by simp [lookAheadPlan, List.isEmpty_iff.1 hq]⟩
  | entryAborted => exact ⟨_, rfl, h.of_view (tearView_entryAborted s)⟩
  | _ => exact lineInvariant_tearSettled.exec h rfl

end

/-- Settles O32: every command leaves what the conditions read, or settles the timer as it ends. -/
theorem tearTimerConditions : Obligations.TearTimerConditions :=
  ⟨tearReady, tearReady_iff, settleTear_eq, fun _ _ =>
    step_keeps (P := TearSettled) (fun _ _ => id) fun c _ h => h.exec c⟩

end Sys2Proof.Machine
end

section
/-! The paper record: the rows of R94, and that every command keeps the paper in one of them. -/

namespace Sys2Proof.Machine

/-! ## The rows of the record (spec/05 R94) -/

/-- A paper state with the motion and the park that belong to it. -/
inductive Paper.Row (p : Paper) : Prop
  | idle (hstate : p.state = .idle) (hmotion : p.motion = none) (hpark : p.park = none)
  | moving (m : Motion) (hstate : p.state = if 0 < m.distance then .advancing else .retracting)
      (hmotion : p.motion = some m) (hpark : p.park = none) (hdist : m.distance ≠ 0) (hsound : m.sound = true)
  | parked (hstate : p.state = .tearParked) (hmotion : p.motion = none) (hpark : p.park ≠ none)
  | out (hstate : p.state = .out) (hmotion : p.motion = none) (hpark : p.park = none) (hpe : p.pe = some 0)

/-- The paper record outside a reset held by RESET_N, while the sensor sees paper or not. -/
structure PaperOk (seen : Bool) (p : Paper) : Prop where
  row : p.Row
  pe : ∀ n, p.pe = some n → n ≤ 540
  a : p.a ≤ 2
  seen : seen = true → p.pe = none

/-- The paper record of a state. -/
structure PaperSound (s : State) : Prop where
  row : s.paper.Row
  pe : ∀ n, s.paper.pe = some n → n ≤ 540
  a : s.paper.a ≤ 2
  seen : s.pins.resetLow = false → s.pins.paperSeen = true → s.paper.pe = none
  held : s.pins.resetLow = true → s.queue.isEmpty = true ∧ s.paper.motion = none ∧ s.paper.park = none

section
variable {p : Paper}

theorem Paper.row_of_idle (h : p.state = .idle) : p.Row ↔ p.motion = none ∧ p.park = none := by
  refine ⟨?_, fun ⟨hm, hp⟩ => .idle h hm hp⟩
  rintro (⟨-, hm, hp⟩ | ⟨m, hs, -⟩ | ⟨hs, -⟩ | ⟨hs, -⟩)
  · exact ⟨hm, hp⟩
  · split at hs <;> cases h.symm.trans hs
  · cases h.symm.trans hs
  · cases h.symm.trans hs

theorem Paper.row_of_moving (h : p.state = .advancing ∨ p.state = .retracting) : p.Row ↔
    (∃ m, p.motion = some m ∧ (if p.state = .advancing then 0 < m.distance else m.distance < 0) ∧ m.sound = true)
      ∧ p.park = none := by
  constructor
  · rintro (⟨hs, -⟩ | ⟨m, hs, hm, hp, hd, hsound⟩ | ⟨hs, -⟩ | ⟨hs, -⟩)
    · simp [hs] at h
    · refine ⟨⟨m, hm, ?_, hsound⟩, hp⟩
      by_cases hpos : 0 < m.distance
      · simp [hs, hpos]
      · simp [hs, hpos]; omega
    · simp [hs] at h
    · simp [hs] at h
  · rintro ⟨⟨m, hm, hd, hsound⟩, hp⟩
    rcases h with h | h <;> simp only [h, reduceCtorEq, if_true, if_false] at hd
    · exact .moving m (by rw [h, if_pos hd]) hm hp (by omega) hsound
    · exact .moving m (by rw [h, if_neg (by omega)]) hm hp (by omega) hsound

theorem Paper.row_of_parked (h : p.state = .tearParked) : p.Row ↔ p.motion = none ∧ p.park ≠ none := by
  refine ⟨?_, fun ⟨hm, hp⟩ => .parked h hm hp⟩
  rintro (⟨hs, -⟩ | ⟨m, hs, -⟩ | ⟨-, hm, hp⟩ | ⟨hs, -⟩)
  · cases h.symm.trans hs
  · split at hs <;> cases h.symm.trans hs
  · exact ⟨hm, hp⟩
  · cases h.symm.trans hs

theorem Paper.row_of_out (h : p.state = .out) : p.Row ↔ (p.motion = none ∧ p.park = none) ∧ p.pe = some 0 := by
  refine ⟨?_, fun ⟨⟨hm, hp⟩, hpe⟩ => .out h hm hp hpe⟩
  rintro (⟨hs, -⟩ | ⟨m, hs, -⟩ | ⟨hs, -⟩ | ⟨-, hm, hp, hpe⟩)
  · cases h.symm.trans hs
  · split at hs <;> cases h.symm.trans hs
  · cases h.symm.trans hs
  · exact ⟨⟨hm, hp⟩, hpe⟩

end

theorem paperSound_eq (s : State) : paperSound s = true ↔ s.paper.Row ∧ (∀ n, s.paper.pe = some n → n ≤ 540)
    ∧ (s.pins.resetLow = true ∨ s.pins.paperSeen = false ∨ s.paper.pe = none) ∧ s.paper.a ≤ 2
    ∧ (s.pins.resetLow = false ∨ s.queue.isEmpty = true ∧ s.paper.motion = none ∧ s.paper.park = none) := by
  have hpe : s.paper.pe.all (fun n => decide (n ≤ Config.paperEndSpan)) = true
      ↔ ∀ n, s.paper.pe = some n → n ≤ 540 := by
    simp only [Option.all_eq_true, decide_eq_true_eq]; rfl
  unfold paperSound
  rw [Bool.and_eq_true, Bool.and_eq_true, Bool.and_eq_true, Bool.and_eq_true, hpe]
  cases hs : s.paper.state
  case idle => rw [Paper.row_of_idle hs]; simp [and_assoc, or_assoc]
  case advancing => rw [Paper.row_of_moving (.inl hs)]; simp [hs, and_assoc, or_assoc, Option.any_eq_true]
  case retracting => rw [Paper.row_of_moving (.inr hs)]; simp [hs, and_assoc, or_assoc, Option.any_eq_true]
  case tearParked => rw [Paper.row_of_parked hs]; simp [and_assoc, or_assoc, Option.isSome_iff_ne_none]
  case out => rw [Paper.row_of_out hs]; simp [and_assoc, or_assoc]

theorem paperSound_iff (s : State) : paperSound s = true ↔ PaperSound s := by
  rw [paperSound_eq]
  constructor
  · rintro ⟨hrow, hpe, hseen, ha, hheld⟩
    exact ⟨hrow, hpe, ha, fun hl hs => by simpa [hl, hs] using hseen, fun hl => by simpa [hl] using hheld⟩
  · rintro ⟨hrow, hpe, ha, hseen, hheld⟩
    refine ⟨hrow, hpe, ?_, ha, ?_⟩
    · cases hl : s.pins.resetLow
      · cases hs : s.pins.paperSeen <;> simp [hseen hl, hs]
      · simp
    · cases hl : s.pins.resetLow
      · simp
      · exact .inr (hheld hl)

/-! ## Acts outside a reset -/

section
variable {s t : State}

theorem PaperSound.ok (h : PaperSound s) (hhigh : s.pins.resetLow = false) : PaperOk s.pins.paperSeen s.paper :=
  ⟨h.row, h.pe, h.a, h.seen hhigh⟩

/-- Outside a reset held by RESET_N only the record itself matters. -/
theorem PaperSound.of_ok (hhigh : t.pins.resetLow = false) (h : PaperOk t.pins.paperSeen t.paper) : PaperSound t :=
  ⟨h.row, h.pe, h.a, fun _ => h.seen, fun hlow => absurd (hhigh.symm.trans hlow) Bool.false_ne_true⟩

/-- An act outside a reset that leaves the pins. -/
theorem PaperSound.outside (h : PaperSound s) (hhigh : s.pins.resetLow = false) (hpins : t.pins = s.pins)
    (ht : PaperOk s.pins.paperSeen s.paper → PaperOk s.pins.paperSeen t.paper) : PaperSound t :=
  .of_ok (hpins ▸ hhigh) (by rw [hpins]; exact ht (h.ok hhigh))

theorem PaperSound.high_of_motion (h : PaperSound s) {m : Motion} (hm : s.paper.motion = some m) :
    s.pins.resetLow = false := by
  refine Bool.eq_false_iff.2 fun hlow => ?_
  obtain ⟨-, hnone, -⟩ := h.held hlow
  cases hm.symm.trans hnone

theorem PaperSound.high_of_queued (h : PaperSound s) (hq : s.queue.isEmpty = false) : s.pins.resetLow = false := by
  refine Bool.eq_false_iff.2 fun hlow => ?_
  obtain ⟨hempty, -⟩ := h.held hlow
  cases hq.symm.trans hempty

/-- The blocks that the record speaks of. -/
def paperView (s : State) : Paper × Bool × Bool × Bool :=
  (s.paper, s.pins.resetLow, s.pins.paperSeen, s.queue.isEmpty)

theorem PaperSound.of_view (h : PaperSound s) (ht : paperView t = paperView s) : PaperSound t := by
  simp only [paperView, Prod.mk.injEq] at ht
  obtain ⟨hpaper, hlow, hseen, hempty⟩ := ht
  exact ⟨hpaper ▸ h.row, hpaper ▸ h.pe, hpaper ▸ h.a, by rw [hpaper, hlow, hseen]; exact h.seen,
    by rw [hpaper, hlow, hempty]; exact h.held⟩

end

/-! ### Rest, park and end of the paper -/

theorem settleTear_paper (s : State) : (settleTear s).paper = s.paper := by simp

theorem reportDone_paper (p : Purpose) (s : State) : (reportDone p s).paper = s.paper := by simp

section
variable {b : Bool} {p : Paper}

theorem PaperOk.rest (h : PaperOk b p) : PaperOk b { p with state := .idle, park := none, motion := none } :=
  ⟨.idle rfl rfl rfl, h.pe, h.a, h.seen⟩

theorem PaperOk.park (h : PaperOk b p) (d : Nat) :
    PaperOk b { p with state := .tearParked, park := some d, motion := none } :=
  ⟨.parked rfl rfl nofun, h.pe, h.a, h.seen⟩

theorem PaperOk.out (h : PaperOk b p) (hpe : p.pe = some 0) :
    PaperOk b { p with state := .out, park := none, motion := none } :=
  ⟨.out rfl rfl rfl hpe, h.pe, h.a, h.seen⟩

theorem PaperOk.order (h : PaperOk b p) (purpose : Purpose) {d : Int} (hd : d ≠ 0) (path : PaperPath) :
    PaperOk b { p with
      state := if 0 < d then .advancing else .retracting, park := none
      motion := some { purpose := purpose, distance := d, moved := 0, path := path, stop := none } } :=
  ⟨.moving _ rfl rfl rfl hd (by simp [Motion.sound]), h.pe, h.a, h.seen⟩

end

theorem paperEndStop_paper (m : Motion) (s : State) : (paperEndStop m s).paper =
    if m.purpose = .tear then { s.paper with state := .tearParked, park := some m.moved, motion := none }
    else { s.paper with state := .out, park := none, motion := none } := by
  unfold paperEndStop
  cases m.purpose with
  | tear => simp [parkAt]
  | entryAdvance tag => dsimp only; split <;> simp [restPaper]
  | skip => simp [restPaper]
  | retract => simp [restPaper]

theorem PaperOk.paperEndStop {b : Bool} {s : State} (h : PaperOk b s.paper) (hpe : s.paper.pe = some 0) (m : Motion) :
    PaperOk b (paperEndStop m s).paper := by
  rw [paperEndStop_paper]
  split
  · exact h.park _
  · exact h.out hpe

theorem PaperOk.takeOrder {b : Bool} {s : State} (h : PaperOk b s.paper) (p : Purpose) (d : Int) :
    PaperOk b (takeOrder p d s).paper := by
  unfold Machine.takeOrder
  split
  · rw [reportDone_paper]
    split
    · exact h.rest
    · exact h
  · rename_i hd
    dsimp only
    split
    · rename_i hend
      exact h.paperEndStop hend.2 _
    · exact h.order p hd _

theorem PaperOk.giveRetract {b : Bool} {s : State} (h : PaperOk b s.paper) : PaperOk b (giveRetract s).paper := by
  unfold Machine.giveRetract
  split
  · exact h.takeOrder _ _
  · exact h

/-! ### Motions -/

theorem tractorUnit_le (forward : Bool) {a : Nat} (h : a ≤ 2) : (tractorUnit forward a).1 ≤ 2 := by
  rcases (by omega : a = 0 ∨ a = 1 ∨ a = 2) with rfl | rfl | rfl <;> cases forward <;> decide

theorem countdownUnit_le {forward : Bool} {pe : Option Nat} (h : ∀ n, pe = some n → n ≤ 540) :
    ∀ n, countdownUnit forward pe = some n → n ≤ 540 := by
  intro n hn
  obtain ⟨k, hk, rfl⟩ := Option.map_eq_some_iff.1 hn
  have := h k hk
  split
  · omega
  · exact Nat.min_le_left _ _

/-- A feed unit takes one unit of the distance, and of the ramp-down if there is one. -/
theorem Motion.sound_fed {m : Motion} (h : m.sound = true) (hfeed : m.mayFeed = true) : ({ m with
    moved := m.moved + 1, stop := m.stop.map (fun x => { x with ramp := x.ramp - 1 }) } : Motion).sound = true := by
  cases hstop : m.stop with
  | none =>
    simp [Motion.mayFeed, hstop] at hfeed
    simp [Motion.sound]; omega
  | some x =>
    simp [Motion.mayFeed, Motion.sound, hstop] at hfeed h ⊢
    omega

theorem PaperOk.issueUnit {b : Bool} {s : State} (h : PaperOk b s.paper) {m : Motion} (hm : s.paper.motion = some m)
    (hfeed : m.mayFeed = true) : PaperOk b (issueUnit m s).paper := by
  obtain ⟨hrow, hpe, ha, hseen⟩ := h
  refine ⟨?_, countdownUnit_le hpe, ?_, fun hb => by simp [Machine.issueUnit, countdownUnit, hseen hb]⟩
  · rcases hrow with ⟨-, hnone, -⟩ | ⟨m', hs, hm', hp, hd, hsound⟩ | ⟨-, hnone, -⟩ | ⟨-, hnone, -⟩
    · cases hm.symm.trans hnone
    · obtain rfl := Option.some.inj (hm.symm.trans hm')
      exact .moving { m with
        moved := m.moved + 1, stop := m.stop.map (fun x => { x with ramp := x.ramp - 1 }) } hs rfl hp hd
        (Motion.sound_fed hsound hfeed)
    · cases hm.symm.trans hnone
    · cases hm.symm.trans hnone
  · simp only [Machine.issueUnit, setOutputs_paper, setPaper_paper]
    split
    · exact tractorUnit_le _ ha
    · exact ha

theorem PaperSound.feedUnit {s : State} (h : PaperSound s) : PaperSound (feedUnit s) := by
  unfold Machine.feedUnit
  split
  · exact h
  rename_i m hm
  split
  · rename_i hfeed
    refine h.outside (h.high_of_motion hm) ?_ fun hok => ?_
    · dsimp only; (repeat' split) <;> simp
    · have hunit := hok.issueUnit hm hfeed
      dsimp only
      split
      · exact hunit
      split
      · rename_i hend
        rw [settleTear_paper]
        exact hunit.paperEndStop hend.2 _
      · exact hunit
  · exact h

theorem completeMotion_paper (m : Motion) (s : State) : (completeMotion m s).paper =
    if m.purpose = .tear then { s.paper with state := .tearParked, park := some m.moved, motion := none }
    else { s.paper with state := .idle, park := none, motion := none } := by
  unfold completeMotion
  cases m.purpose <;> simp [parkAt, restPaper]

theorem PaperOk.endStopped {b : Bool} {s : State} (h : PaperOk b s.paper) (m : Motion) :
    PaperOk b (endStopped m s).paper := by
  have hrest : ∀ {u : State}, u.paper = (restPaper .idle s).paper → PaperOk b u.paper := fun hu => hu ▸ h.rest
  unfold Machine.endStopped
  cases m.purpose with
  | tear => exact h.park _
  | entryAdvance tag => dsimp only; split <;> exact hrest (by simp)
  | skip => exact h.rest
  | retract =>
    dsimp only
    split
    · exact h.park _
    · split <;> exact hrest (by simp)

theorem PaperSound.paperMotionComplete {s : State} (h : PaperSound s) : PaperSound (paperMotionComplete s) := by
  unfold Machine.paperMotionComplete
  split
  · exact h
  rename_i m hm
  have hhigh := h.high_of_motion hm
  split
  · refine h.outside hhigh (by simp) fun hok => ?_
    rw [settleTear_paper]
    exact (hok.endStopped m).giveRetract
  split
  · refine h.outside hhigh (by simp) fun hok => ?_
    have hdone : PaperOk s.pins.paperSeen (completeMotion m s).paper := by
      rw [completeMotion_paper]
      split
      · exact hok.park _
      · exact hok.rest
    rw [settleTear_paper]
    exact hdone.giveRetract
  · exact h

/-! ## Stops -/

theorem Motion.sound_iff (m : Motion) : m.sound = true ↔ m.moved ≤ m.distance.natAbs
    ∧ ∀ x, m.stop = some x → m.moved + x.ramp ≤ m.distance.natAbs ∧ x.ramp ≤ 40 := by
  simp only [Motion.sound, Bool.and_eq_true, Option.all_eq_true, decide_eq_true_eq]; rfl

theorem PaperSound.stopPaper {s : State} (h : PaperSound s) (c : StopCause) : PaperSound (stopPaper c s) := by
  cases hm : s.paper.motion with
  | none => rw [stopPaper_none hm]; exact h
  | some m =>
    refine h.outside (h.high_of_motion hm) (by simp) fun ⟨hrow, hpe, ha, hseen⟩ => ?_
    rcases hrow with ⟨-, hnone, -⟩ | ⟨m', hs, hm', hp, hd, hsound⟩ | ⟨-, hnone, -⟩ | ⟨-, hnone, -⟩
    · cases hm.symm.trans hnone
    · obtain rfl := Option.some.inj (hm.symm.trans hm')
      obtain ⟨hmoved, hramp⟩ := (Motion.sound_iff m).1 hsound
      cases hstop : m.stop with
      | none =>
        rw [stopPaper_going hm hstop]
        refine ⟨.moving
          { m with stop := some { cause := c, ramp := min 40 (m.distance.natAbs - m.moved) } } hs rfl hp hd
          ((Motion.sound_iff _).2 ⟨hmoved, fun x hx => ?_⟩), hpe, ha, hseen⟩
        obtain rfl := Option.some.inj hx
        dsimp only
        omega
      | some x =>
        rw [stopPaper_stopping hm hstop]
        refine ⟨.moving
          { m with stop := some { x with cause := if c = .abort then .abort else x.cause } } hs rfl hp hd
          ((Motion.sound_iff _).2 ⟨hmoved, fun y hy => ?_⟩), hpe, ha, hseen⟩
        obtain rfl := Option.some.inj hy
        exact hramp x hstop
    · cases hm.symm.trans hnone
    · cases hm.symm.trans hnone

theorem PaperSound.raiseFault {s : State} (h : PaperSound s) (code : FaultCode) (tag : Option Byte)
    (pos : Option Nat) : PaperSound (raiseFault code tag pos s) := by
  rw [raiseFault_eq]
  refine PaperSound.stopPaper (h.of_view ?_) _
  rfl

section
variable {s : State}

theorem PaperSound.settleTear (h : PaperSound s) : PaperSound (settleTear s) := h.of_view (by simp [paperView])

theorem PaperSound.giveOwedHoming (h : PaperSound s) : PaperSound (giveOwedHoming s) :=
  h.of_view (by simp [paperView])

theorem PaperSound.checkSweepEnd (h : PaperSound s) : PaperSound (checkSweepEnd s) :=
  h.of_view (by simp [paperView])

theorem PaperSound.stall (h : PaperSound s) (pos : Option Nat) : PaperSound (stall pos s) := by
  unfold Machine.stall
  dsimp only
  refine PaperSound.giveOwedHoming (PaperSound.raiseFault (h.of_view ?_) _ _ _)
  (repeat' split) <;> simp [paperView]

theorem PaperSound.stallTimerExpiry (h : PaperSound s) : PaperSound (stallTimerExpiry s) := by
  unfold Machine.stallTimerExpiry
  split
  · exact (h.stall _).settleTear
  · exact h

theorem PaperSound.checkDriveFault (h : PaperSound s) : PaperSound (checkDriveFault s) := by
  unfold Machine.checkDriveFault takeDriveFault
  dsimp only
  split
  · split
    · exact h
    · refine PaperSound.raiseFault (h.of_view ?_) _ _ _
      split <;> simp [paperView]
  · exact h

theorem PaperSound.compareAt (h : PaperSound s) (q : Nat) : PaperSound (compareAt q s) := by
  unfold Machine.compareAt
  dsimp only
  refine PaperSound.checkSweepEnd (PaperSound.checkDriveFault (h.of_view ?_))
  split <;> simp [paperView]

theorem PaperSound.edgeAt (h : PaperSound s) (dir : Dir) (q : Nat) : PaperSound (edgeAt dir q s) := by
  unfold Machine.edgeAt endRunUp
  dsimp only
  split
  · split
    · exact (h.of_view (by simp [paperView]) : PaperSound _).compareAt q
    · exact h
  · split
    · exact h.compareAt q
    · exact h
  · exact h

theorem PaperSound.crossLimit (h : PaperSound s) (limit : Nat) : PaperSound (crossLimit limit s) := by
  unfold Machine.crossLimit
  dsimp only
  split
  · exact h.stall _
  · split <;> exact h.of_view (by simp [paperView])

theorem PaperSound.edgeUnplaced (h : PaperSound s) (dir : Dir) : PaperSound (edgeUnplaced dir s) := by
  have hfail : ∀ (x : Carriage) (limit travel : Int), PaperSound
      (if limit ≤ travel then Machine.stall none (s.setCarriage x) else s.setCarriage x) := fun x limit travel => by
    split
    · exact (h.of_view rfl : PaperSound (s.setCarriage x)).stall none
    · exact h.of_view rfl
  unfold Machine.edgeUnplaced
  split
  · split
    · exact hfail _ _ _
    · exact hfail _ _ _
    · exact h
  · exact h

theorem PaperSound.encoderEdge (h : PaperSound s) (q : Quad) : PaperSound (encoderEdge q s) := by
  have hturn : PaperSound (turnQuad q s) := by cases q <;> exact h.of_view rfl
  have hstart : PaperSound (if (turnQuad q s).carriage.drive = .off then turnQuad q s
      else startStall (turnQuad q s)) := by
    split
    · exact hturn
    · exact hturn.of_view rfl
  unfold Machine.encoderEdge countEdge
  refine PaperSound.settleTear ?_
  split
  · exact hstart.edgeUnplaced _
  · split
    · exact hstart.crossLimit _
    · refine PaperSound.edgeAt (hstart.of_view ?_) _ _
      rfl

theorem PaperSound.burstEnd (h : PaperSound s) : PaperSound (burstEnd s) := by
  unfold Machine.burstEnd
  split
  · exact h
  split
  · refine PaperSound.settleTear (PaperSound.checkSweepEnd (PaperSound.checkDriveFault (h.of_view ?_)))
    simp [paperView]
  · exact h

theorem PaperSound.driveFaultInput (h : PaperSound s) (asserted : Bool) : PaperSound (driveFaultInput asserted s) :=
  PaperSound.settleTear (PaperSound.checkDriveFault (h.of_view rfl))

/-! ## Orders, the sensor and the tear timer -/

theorem PaperSound.tearIdleTimerExpiry (h : PaperSound s) : PaperSound (tearIdleTimerExpiry s) := by
  unfold Machine.tearIdleTimerExpiry
  split
  · rename_i hdue
    refine h.outside ((tearReady_iff s).1 hdue.2).1 ?_ fun hok => ?_
    · dsimp only; split <;> simp
    · have hstopped : PaperOk s.pins.paperSeen (stopTear s).paper := hok
      dsimp only
      split
      · rw [settleTear_paper]; exact hstopped.park 0
      · rw [settleTear_paper]; exact hstopped.takeOrder _ _
  · exact h

/-- A tail that passes the sensor starts the countdown; a paper that is OUT has no tail left to pass. -/
theorem PaperSound.paperGone (h : PaperSound s) : PaperSound (paperGone s) := by
  unfold Machine.paperGone
  split
  case isFalse => exact h
  case isTrue hseen =>
    dsimp only
    split
    · rename_i hlow
      exact ⟨h.row, h.pe, h.a, fun _ hf => (nomatch hf), h.held⟩
    · rename_i hlow
      have hhigh := Bool.eq_false_iff.2 hlow
      refine .of_ok hhigh ⟨?_, fun n hn => ?_, h.a, fun hf => nomatch hf⟩
      · rcases h.row with ⟨hs, hm, hp⟩ | ⟨m, hs, hm, hp, hd, hsound⟩ | ⟨hs, hm, hp⟩ | ⟨-, -, -, hpe⟩
        · exact .idle hs hm hp
        · exact .moving m hs hm hp hd hsound
        · exact .parked hs hm hp
        · cases hpe.symm.trans (h.seen hhigh hseen)
      · obtain rfl := Option.some.inj hn
        exact le_rfl

theorem PaperSound.paperBack (h : PaperSound s) : PaperSound (paperBack s) := by
  unfold Machine.paperBack
  split
  · exact h
  dsimp only
  split
  · rename_i hlow
    exact ⟨h.row, h.pe, h.a, fun hhigh => absurd (hhigh.symm.trans hlow) Bool.false_ne_true, h.held⟩
  · rename_i hlow
    refine PaperSound.settleTear (.of_ok (Bool.eq_false_iff.2 hlow) ⟨?_, nofun, h.a, fun _ => rfl⟩)
    rcases h.row with ⟨hs, hm, hp⟩ | ⟨m, hs, hm, hp, hd, hsound⟩ | ⟨hs, hm, hp⟩ | ⟨hs, hm, hp, -⟩
    · exact .idle (by simp [hs]) hm hp
    · refine .moving m ?_ hm hp hd hsound
      simp only [setPins_paper, hs, setPaper_paper]
      split <;> simp
    · exact .parked (by simp [hs]) hm hp
    · exact .idle (by simp [hs]) hm hp

/-! ## The runner's orders

An order needs a head entry, so that no reset is held. -/

theorem PaperSound.takeUp (h : PaperSound s) : PaperSound (takeUp s) := by
  by_cases hq : s.queue.isEmpty = true
  · rw [show Machine.takeUp s = s by simp [Machine.takeUp, List.isEmpty_iff.1 hq]]; exact h
  refine h.outside (h.high_of_queued (Bool.eq_false_iff.2 hq)) (by simp) fun hok => ?_
  unfold Machine.takeUp startHead
  dsimp only
  split
  · exact hok
  split
  · split
    · exact PaperOk.giveRetract (by simpa using hok)
    · simpa using hok
  · exact hok.giveRetract

theorem PaperSound.prep (h : PaperSound s) : PaperSound (prep s) := by
  by_cases hq : s.queue.isEmpty = true
  · rw [show Machine.prep s = s by simp [Machine.prep, headPrint_of_empty hq]]; exact h
  refine h.outside (h.high_of_queued (Bool.eq_false_iff.2 hq)) (by simp) fun hok => ?_
  have hgiven : PaperOk s.pins.paperSeen (firstOrderGiven s).paper := hok
  unfold Machine.prep
  split
  · split
    · split
      · exact hgiven.takeOrder _ _
      · exact hok
    · simpa using hok
  · exact hok

theorem PaperSound.advanceOrder (h : PaperSound s) : PaperSound (advanceOrder s) := by
  by_cases hq : s.queue.isEmpty = true
  · rw [show Machine.advanceOrder s = s by simp [Machine.advanceOrder, List.isEmpty_iff.1 hq]]; exact h
  refine h.outside (h.high_of_queued (Bool.eq_false_iff.2 hq)) (by simp) fun hok => ?_
  unfold Machine.advanceOrder
  split
  · exact hok
  split
  · exact hok
  split
  · rw [settleTear_paper]
    exact PaperOk.takeOrder (by simpa using hok) _ _
  · exact hok

theorem PaperSound.advanceEntryOrder (h : PaperSound s) : PaperSound (advanceEntryOrder s) := by
  by_cases hq : s.queue.isEmpty = true
  · rw [show Machine.advanceEntryOrder s = s by simp [Machine.advanceEntryOrder, List.isEmpty_iff.1 hq]]; exact h
  refine h.outside (h.high_of_queued (Bool.eq_false_iff.2 hq)) (by simp) fun hok => ?_
  unfold Machine.advanceEntryOrder
  split
  · exact hok
  split
  · rw [settleTear_paper]
    exact PaperOk.takeOrder (by simpa using hok) _ _
  · exact hok

/-! ## The pins -/

theorem paperView_homeSensorChange (covered : Bool) (s : State) :
    paperView (homeSensorChange covered s) = paperView s := by
  unfold homeSensorChange; dsimp only; (repeat' split) <;> rfl

theorem paperView_coverOpens (s : State) : paperView (coverOpens s) = paperView s := by
  unfold coverOpens; split <;> simp [paperView]

/-! ## Resets -/

/-- The record as a warm reset leaves it: the paper stands without a park, in IDLE or OUT. -/
theorem Paper.row_warmPaper {p : Paper} (h : p.Row) : (warmPaper p).Row := by
  by_cases hout : p.state = .out
  · exact .out (by simp [warmPaper, hout]) rfl rfl ((Paper.row_of_out hout).1 h).2
  · exact .idle (by simp [warmPaper, hout]) rfl rfl

theorem PaperSound.warmValues (h : PaperSound s) : PaperSound (warmValues s) :=
  ⟨Paper.row_warmPaper h.row, h.pe, h.a, h.seen, fun _ => ⟨rfl, rfl, rfl⟩⟩

theorem PaperSound.resetNAssert (h : PaperSound s) : PaperSound (resetNAssert s) := by
  unfold Machine.resetNAssert
  split
  · exact h
  · exact ⟨h.warmValues.row, h.pe, h.a, fun hhigh => (nomatch hhigh), fun _ => ⟨rfl, rfl, rfl⟩⟩

/-- The sensor is read with the paper standing: seen, passed, or passed long ago. -/
theorem PaperSound.endReset (hpe : ∀ n, s.paper.pe = some n → n ≤ 540) (ha : s.paper.a ≤ 2)
    (hq : s.queue.isEmpty = true) (hmotion : s.paper.motion = none) (hpark : s.paper.park = none) (b a : Bool) :
    PaperSound (endReset b a s) := by
  unfold Machine.endReset
  refine PaperSound.settleTear ?_
  unfold readPaperSensor
  split
  · exact ⟨.idle rfl hmotion hpark, nofun, ha, fun _ _ => rfl, fun _ => ⟨hq, hmotion, hpark⟩⟩
  · rename_i hgone
    have hseen : ∀ {pe : Option Nat}, (sampleStraps b a s).pins.paperSeen = true → pe = none := fun hs =>
      absurd hs hgone
    split
    · refine ⟨.out rfl hmotion hpark rfl, fun n hn => ?_, ha, fun _ hs => hseen hs,
        fun _ => ⟨hq, hmotion, hpark⟩⟩
      obtain rfl := Option.some.inj hn
      exact Nat.zero_le _
    · rename_i hzero
      exact ⟨.out rfl hmotion hpark hzero, hpe, ha, fun _ hs => hseen hs, fun _ => ⟨hq, hmotion, hpark⟩⟩
    · exact ⟨.idle rfl hmotion hpark, hpe, ha, fun _ hs => hseen hs, fun _ => ⟨hq, hmotion, hpark⟩⟩

theorem paperSound_powerOnReset (l : Levels) (s : State) : PaperSound (powerOnReset l s) :=
  PaperSound.endReset (fun n hn => nomatch (show none = some n from hn)) (Nat.zero_le _) rfl rfl rfl _ _

theorem PaperSound.resetNRelease (h : PaperSound s) (b a : Bool) : PaperSound (resetNRelease b a s) := by
  unfold Machine.resetNRelease
  split
  · rename_i hlow
    obtain ⟨hq, hmotion, hpark⟩ := h.held hlow
    exact PaperSound.endReset (s := s.setPins { s.pins with resetLow := false }) h.pe h.a hq hmotion hpark b a
  · exact h

theorem PaperSound.warmReset (h : PaperSound s) (b a : Bool) : PaperSound (warmReset b a s) := by
  unfold Machine.warmReset
  split
  · exact PaperSound.endReset (s := Machine.warmValues s) h.pe h.a rfl rfl rfl b a
  · exact h

theorem PaperSound.replySent (h : PaperSound s) : PaperSound (replySent s) := by
  unfold Machine.replySent
  split
  · exact h.warmReset _ _
  · exact h.of_view rfl

/-! ## Requests -/

/-- A park given up leaves the paper IDLE where it was parked (R117). -/
theorem PaperOk.dropPark {b : Bool} (h : PaperOk b s.paper) (hrest : paperInFlight s = false) :
    PaperOk b (dropPark s).paper := by
  refine ⟨?_, h.pe, h.a, h.seen⟩
  rcases h.row with ⟨hs, hm, hp⟩ | ⟨m, hs, -⟩ | ⟨hs, hm, hp⟩ | ⟨hs, hm, hp, hpe⟩
  · exact .idle (by simp [Machine.dropPark, hs]) hm rfl
  · unfold paperInFlight at hrest
    rw [hs] at hrest
    split at hrest <;> cases hrest
  · exact .idle (by simp [Machine.dropPark, hs]) hm rfl
  · exact .out (by simp [Machine.dropPark, hs]) hm rfl hpe

/-- Another form offset is no matter of the record. -/
theorem PaperOk.offset {b : Bool} {p : Paper} (h : PaperOk b p) (y : Nat) : PaperOk b { p with y := y } := by
  refine ⟨?_, h.pe, h.a, h.seen⟩
  rcases h.row with ⟨hs, hm, hp⟩ | ⟨m, hs, hm, hp, hd, hsound⟩ | ⟨hs, hm, hp⟩ | ⟨hs, hm, hp, hpe⟩
  · exact .idle hs hm hp
  · exact .moving m hs hm hp hd hsound
  · exact .parked hs hm hp
  · exact .out hs hm hp hpe

theorem PaperOk.defineForm {b : Bool} (h : PaperOk b s.paper) (r : FormRequest) :
    PaperOk b (reqDefineForm r s).state.paper := by
  have hstore : ∀ slot p, PaperOk b (storeForm slot p s).paper := fun slot p => by
    unfold storeForm
    dsimp only
    split
    · simpa using h.offset _
    · exact h
  unfold reqDefineForm
  dsimp only
  split
  · exact h
  split
  · exact h
  split
  · exact h
  split
  · split
    · exact h
    split
    · exact h
    · exact hstore _ _
  · exact h

theorem PaperOk.selectForm {b : Bool} (h : PaperOk b s.paper) (slot : Byte) :
    PaperOk b (reqSelectForm slot s).state.paper := by
  unfold reqSelectForm
  split
  · exact h
  split
  · exact h
  rename_i hbusy
  have hrest : paperInFlight s = false := by simp_all
  split
  · exact h
  · rw [accept_state, settleTear_paper, (stopTear_frame _).2.2.2.2.2.2.2.2.1]
    exact PaperOk.dropPark (h.offset 0) hrest

theorem PaperOk.setTof {b : Bool} (h : PaperOk b s.paper) : PaperOk b (reqSetTof s).state.paper := by
  unfold reqSetTof
  split
  · exact h
  · rename_i hfree
    have hrest : paperInFlight s = false := by simp_all [motionBusy]
    rw [accept_state, settleTear_paper]
    exact PaperOk.dropPark (h.offset 0) hrest

/-- The queue is emptied and the paper in motion stopped. -/
theorem PaperSound.abort (h : PaperSound s) : PaperSound (reqAbort s).state := by
  have hemptied : PaperSound (emptyQueue (recordAborted s)) := by
    have hpaper : (emptyQueue (recordAborted s)).paper = s.paper := by simp
    have hpins : (emptyQueue (recordAborted s)).pins = s.pins := by simp
    refine ⟨hpaper ▸ h.row, hpaper ▸ h.pe, hpaper ▸ h.a, by rw [hpaper, hpins]; exact h.seen, fun hlow => ?_⟩
    rw [hpins] at hlow
    rw [hpaper]
    exact ⟨rfl, (h.held hlow).2⟩
  unfold reqAbort abortAll
  rw [accept_state]
  refine PaperSound.settleTear ?_
  dsimp only
  have hstop : ∀ {u : State}, paperView u = paperView (emptyQueue (recordAborted s)) →
      PaperSound (Machine.stopPaper .abort u) := fun hu => (hemptied.of_view hu).stopPaper _
  split
  · exact hstop (by simp [paperView])
  · exact PaperSound.of_view (hstop (by simp [paperView])) rfl

/-- Of the owners those of DEFINE_FORM, SELECT_FORM, SET_TOF and ABORT reach the paper. -/
theorem PaperSound.owner (h : PaperSound s) {owner : State → Verdict} (howner : Owner owner)
    (hhigh : s.pins.resetLow = false) : PaperSound (owner s).state := by
  cases howner with
  | defineForm r => exact h.outside hhigh (by simp) fun hok => hok.defineForm r
  | selectForm slot => exact h.outside hhigh (by simp) fun hok => hok.selectForm slot
  | setTof => exact h.outside hhigh (by simp) fun hok => hok.setTof
  | abort => exact h.abort
  | _ => exact h.outside hhigh (by simp) fun hok => by simpa using hok

theorem lineInvariant_paperSound : LineInvariant PaperSound :=
  ⟨fun _ =>
    ⟨fun ⟨h1, h2, h3, h4, h5⟩ => ⟨h1, h2, h3, h4, h5⟩, fun ⟨h1, h2, h3, h4, h5⟩ => ⟨h1, h2, h3, h4, h5⟩⟩,
    fun howner _ hhigh h => h.owner howner hhigh⟩

/-! ## Every command -/

theorem PaperSound.exec (h : PaperSound s) (c : Instr) : ∃ t, exec c s = .next t ∧ PaperSound t := by
  have view : ∀ {t : State}, paperView t = paperView s → PaperSound t := fun ht => h.of_view ht
  cases c with
  | powerOnReset l => exact ⟨_, rfl, paperSound_powerOnReset l s⟩
  | resetNAssert => exact ⟨_, rfl, h.resetNAssert⟩
  | resetNRelease b a => exact ⟨_, rfl, h.resetNRelease b a⟩
  | warmReset b a => exact ⟨_, rfl, h.warmReset b a⟩
  | replySent => exact ⟨_, rfl, h.replySent⟩
  | msTick => exact ⟨_, rfl, view (by simp [paperView])⟩
  | coolingTick => exact ⟨_, rfl, view (by simp [paperView])⟩
  | windowTimerExpiry => exact ⟨_, rfl, view (by simp [paperView])⟩
  | tearIdleTimerExpiry => exact ⟨_, rfl, h.tearIdleTimerExpiry⟩
  | stallTimerExpiry => exact ⟨_, rfl, h.stallTimerExpiry⟩
  | restDetected => exact ⟨_, rfl, view (by simp [paperView])⟩
  | brakeRampEnd => exact ⟨_, rfl, view (by simp [paperView])⟩
  | encoderEdge q => exact ⟨_, rfl, h.encoderEdge q⟩
  | homeSensorChange covered => exact ⟨_, rfl, view (paperView_homeSensorChange covered s)⟩
  | burstSlot => exact ⟨_, rfl, view (by simp [paperView])⟩
  | burstEnd => exact ⟨_, rfl, h.burstEnd⟩
  | driveFault asserted => exact ⟨_, rfl, h.driveFaultInput asserted⟩
  | coverOpen => exact ⟨_, rfl, view (paperView_coverOpens s)⟩
  | coverClose => exact ⟨_, rfl, view rfl⟩
  | paperSnsNoPaper => exact ⟨_, rfl, h.paperGone⟩
  | paperSnsPaper => exact ⟨_, rfl, h.paperBack⟩
  | feedUnit => exact ⟨_, rfl, h.feedUnit⟩
  | paperMotionComplete => exact ⟨_, rfl, h.paperMotionComplete⟩
  | takeUp => exact ⟨_, rfl, h.takeUp⟩
  | prep => exact ⟨_, rfl, h.prep⟩
  | masking => exact ⟨_, rfl, view (by simp [paperView])⟩
  | heatCheck => exact ⟨_, rfl, view (by simp [paperView])⟩
  | position => exact ⟨_, rfl, view (by simp [paperView])⟩
  | sweepOrder => exact ⟨_, rfl, view (by simp [paperView])⟩
  | resumeSuspended => exact ⟨_, rfl, view (by simp [paperView])⟩
  | advanceOrder => exact ⟨_, rfl, h.advanceOrder⟩
  | advanceEntryOrder => exact ⟨_, rfl, h.advanceEntryOrder⟩
  | lookAheadPlan => exact ⟨_, rfl, view (by simp [paperView])⟩
  | entryAborted => exact ⟨_, rfl, view (by simp [paperView])⟩
  | _ => exact lineInvariant_paperSound.exec h rfl

end

/-- Settles O59: every command leaves the paper in one of its rows, and none moves it while RESET_N is low. -/
theorem stepKeepsPaperSound : Obligations.StepKeepsPaperSound := fun s t hs hstep =>
  (paperSound_iff t).2 (step_keeps (P := PaperSound) (fun _ _ h => h.of_view rfl) (fun c _ h => h.exec c)
    ((paperSound_iff s).1 hs) hstep)

end Sys2Proof.Machine
end

section
/-! DEFINE_FORM: the order of its checks, the held profile, and what a carried-out definition leaves. -/

namespace Sys2Proof.Machine

/-! ## The codes (spec/09 R193) -/

theorem pathOf_of_le {b : Byte} (h : b.toNat ≤ 1) :
    pathOf b = some (if b = 0#8 then .tractor else .friction) := by
  rcases (by omega : b.toNat = 0 ∨ b.toNat = 1) with hb | hb
  · obtain rfl : b = 0#8 := BitVec.eq_of_toNat_eq hb; rfl
  · obtain rfl : b = 1#8 := BitVec.eq_of_toNat_eq hb; rfl

theorem yesNoOf_of_le {b : Byte} (h : b.toNat ≤ 1) : yesNoOf b = some (b == 1#8) := by
  rcases (by omega : b.toNat = 0 ∨ b.toNat = 1) with hb | hb
  · obtain rfl : b = 0#8 := BitVec.eq_of_toNat_eq hb; rfl
  · obtain rfl : b = 1#8 := BitVec.eq_of_toNat_eq hb; rfl

theorem pathOf_of_lt {b : Byte} (h : 1 < b.toNat) : pathOf b = none := by
  unfold pathOf
  split
  · omega
  · omega
  · rfl

theorem yesNoOf_of_lt {b : Byte} (h : 1 < b.toNat) : yesNoOf b = none := by
  unfold yesNoOf
  split
  · omega
  · omega
  · rfl

/-! ## The checks (spec/06 R129) -/

/-- The enumerated codes and the band count of a definition. -/
def CodedForm (r : FormRequest) : Prop :=
  r.path.toNat ≤ 1 ∧ r.skipOn.toNat ≤ 1 ∧ r.bidir.toNat ≤ 1 ∧ r.bandCount.toNat ≤ 4

/-- The profile that a coded definition gives (spec/06 R125 to R127). -/
def formOf (r : FormRequest) : Profile :=
  heldProfile (if r.path = 0#8 then .tractor else .friction) (r.skipOn == 1#8) (r.bidir == 1#8) r

/-- The profile as a coded definition spells it. -/
def sentForm (r : FormRequest) : Profile :=
  sentProfile (if r.path = 0#8 then .tractor else .friction) (r.skipOn == 1#8) (r.bidir == 1#8) r

section
variable {r : FormRequest} {s : State}

theorem reqDefineForm_of_badLength (h : r.bandData.length ≠ 4 * r.bandCount.toNat) :
    reqDefineForm r s = refuse .badLength s := if_pos h

variable (hlen : r.bandData.length = 4 * r.bandCount.toNat)

include hlen

theorem reqDefineForm_of_slot (h : 15 < r.slot.toNat) : reqDefineForm r s = refuse .range s := by
  simp [reqDefineForm, hlen, h]

variable (hslot : r.slot.toNat ≤ 15)

include hslot

theorem reqDefineForm_of_busy (hactive : r.slot.toNat = s.forms.active) (hq : s.queue ≠ []) :
    reqDefineForm r s = refuse .busy s := by
  have : s.forms.active ≤ 15 := hactive ▸ hslot
  simp [reqDefineForm, hlen, hactive, hq]
  omega

variable (hfree : r.slot.toNat ≠ s.forms.active ∨ s.queue = [])

include hfree

theorem reqDefineForm_of_codes (h : ¬CodedForm r) : reqDefineForm r s = refuse .range s := by
  unfold reqDefineForm
  rw [if_neg (not_not.2 hlen), if_neg (by omega), if_neg (by tauto)]
  split
  · rename_i hpath hskip hbidir
    have hle : ∀ {b : Byte}, ¬1 < b.toNat → b.toNat ≤ 1 := fun hb => by omega
    have hcount : 4 < r.bandCount.toNat := by
      by_contra hcount
      refine h ⟨hle fun hb => ?_, hle fun hb => ?_, hle fun hb => ?_, by omega⟩
      · cases hpath.symm.trans (pathOf_of_lt hb)
      · cases hskip.symm.trans (yesNoOf_of_lt hb)
      · cases hbidir.symm.trans (yesNoOf_of_lt hb)
    rw [if_pos hcount]
  · rfl

variable (hcodes : CodedForm r)

include hcodes

theorem reqDefineForm_of_coded : reqDefineForm r s =
    if skipTooTight (formOf r) then refuse .range s
    else { state := storeForm r.slot.toNat (formOf r) s, code := okOr (formOf r != sentForm r), data := [] } := by
  obtain ⟨hpath, hskip, hbidir, hcount⟩ := hcodes
  unfold reqDefineForm
  rw [if_neg (not_not.2 hlen), if_neg (by omega), if_neg (by tauto), pathOf_of_le hpath, yesNoOf_of_le hskip,
    yesNoOf_of_le hbidir]
  dsimp only
  rw [if_neg (by omega)]
  rfl

end

theorem skipTooTight_iff (p : Profile) :
    skipTooTight p = true ↔ p.skipOn = true ∧ (p.length : Int) - p.skip - p.top < 48 := by
  simp [skipTooTight]

/-! ## The held profile (spec/06 R125 to R127) -/

theorem clampBand_eq {len : Nat} (h : 0 < len) (b : Band) : clampBand len b =
    { top := min b.top (len - 1), height := min (max 1 b.height) (len - min b.top (len - 1)) } := by
  have htop : (if len ≤ b.top then len - 1 else b.top) = min b.top (len - 1) := by split <;> omega
  have hheight : (if b.height = 0 then 1 else b.height) = max 1 b.height := by split <;> omega
  simp only [clampBand, htop, hheight]
  congr 1
  split <;> omega

theorem formOf_copies (r : FormRequest) : (formOf r).copies
    = if r.copies.toNat % 16 = 0 then 1 else min 6 (r.copies.toNat % 16) := by
  simp only [formOf, heldProfile, sentCopies]
  split <;> omega

theorem formOf_bands (r : FormRequest) : (formOf r).bands = (bandsOf r.bandData).map (fun b =>
    { top := min b.top ((formOf r).length - 1)
      height := min (max 1 b.height) ((formOf r).length - min b.top ((formOf r).length - 1)) }) :=
  List.map_congr_left fun b _ => clampBand_eq (by simp [heldLength]) b

theorem formOf_tear (r : FormRequest) : (formOf r).tear =
    if r.path = 0#8 then some { idle := min 300 r.idle.toNat, offset := min 720 r.offset.toNat } else none := by
  by_cases h : r.path = 0#8 <;> simp [formOf, heldProfile, heldTear, h]

/-- No clamp changed a value: the path and the two flags are held as they are sent. -/
theorem formOf_eq_sentForm_iff (r : FormRequest) : formOf r = sentForm r ↔
    (formOf r).length = r.length.toNat ∧ (formOf r).top = r.top.toNat ∧ (formOf r).skip = r.skip.toNat
      ∧ (formOf r).copies = r.copies.toNat % 16 ∧ (formOf r).cap = r.cap.toNat
      ∧ (formOf r).bands = bandsOf r.bandData
      ∧ ∀ x, (formOf r).tear = some x → x.idle = r.idle.toNat ∧ x.offset = r.offset.toNat := by
  have htear : (formOf r).tear = (sentForm r).tear ↔
      ∀ x, (formOf r).tear = some x → x.idle = r.idle.toNat ∧ x.offset = r.offset.toNat := by
    rw [formOf_tear]
    by_cases h : r.path = 0#8 <;> simp [sentForm, sentProfile, h]
  rw [← htear, Profile.mk.injEq]
  simp [formOf, sentForm, heldProfile, sentProfile, sentCopies]

/-! ## What a carried-out definition leaves -/

/-- A timer that is stopped and settled starts afresh or stands still. -/
theorem settleTear_stopTear (s : State) : settleTear (stopTear s) = s.setTime { s.time with
    tearIdle := if tearReady s then some (100 * tearIdleOf (activeProfile s)) else none } := by
  have hready : tearReady (stopTear s) = tearReady s := rfl
  by_cases h : tearReady s = true
  · rw [settleTear_start (hready.trans h) rfl, if_pos h]; rfl
  · rw [settleTear_of_not (hready.trans (Bool.eq_false_iff.2 h)), if_neg h]; rfl

theorem storeForm_other {slot : Nat} {p : Profile} {s : State} (h : slot ≠ s.forms.active) :
    storeForm slot p s = s.setForms { s.forms with slots := s.forms.slots.set slot (some p) } := if_neg h

/-- A definition of the active slot reduces Y and starts the tear timer afresh where its conditions hold. -/
theorem storeForm_active {slot : Nat} {p : Profile} {s t : State} (h : slot = s.forms.active)
    (ht : t = storeForm slot p s) :
    t = ((s.setForms t.forms).setPaper { s.paper with y := s.paper.y % p.length }).setTime
      { s.time with tearIdle := if tearReady t then some (100 * tearIdleOf (activeProfile t)) else none } := by
  have hstore : t = settleTear (stopTear ((s.setForms t.forms).setPaper
      { s.paper with y := s.paper.y % p.length })) := by
    rw [ht, storeForm_forms]
    exact if_pos h
  have hready : tearReady t = tearReady ((s.setForms t.forms).setPaper
      { s.paper with y := s.paper.y % p.length }) := by
    conv_lhs => rw [hstore]
    exact tearReady_settleTear _
  rw [hready]
  rw [settleTear_stopTear] at hstore
  exact hstore

/-- Settles O16: the checks in their order; a definition that passes them stores `formOf`. -/
theorem defineFormJudgedAndHeld : Obligations.DefineFormJudgedAndHeld := by
  have hexec : ∀ {r : FormRequest} {s : State}, linkOpen s = true → exec (.defineForm r) s
      = .next (replied 0x12#8 (reqDefineForm r s).code.byte (reqDefineForm r s).data (reqDefineForm r s).state) :=
    fun hopen => congrArg Host.Outcome.next (takeRequest_of_open hopen)
  refine ⟨fun r s hopen => ?_, fun r s hopen hlen hslot hfree hpath hskip hbidir hcount => ?_⟩
  · refine ⟨_, _, _, CodedForm r, Iff.rfl, Iff.rfl, Iff.rfl, Iff.rfl, fun hlen => ?_, fun hlen hslot => ?_,
      fun hlen hslot hbusy => ?_, fun hlen hslot hfree hcodes => ?_, fun hlen hslot hfree hcodes hon htight => ?_⟩
    · rw [hexec hopen, reqDefineForm_of_badLength hlen]; rfl
    · rw [hexec hopen, reqDefineForm_of_slot hlen (by omega)]; rfl
    · obtain ⟨hactive, hq⟩ := not_or.1 hbusy
      rw [hexec hopen, reqDefineForm_of_busy hlen hslot (not_not.1 hactive) hq]; rfl
    · rw [hexec hopen, reqDefineForm_of_codes hlen hslot hfree hcodes]; rfl
    · have hrange : skipTooTight (formOf r) = true := by
        refine (skipTooTight_iff _).2 ⟨by simp [formOf, heldProfile, hon], ?_⟩
        simp only [formOf, heldProfile, heldLength]
        omega
      rw [hexec hopen, reqDefineForm_of_coded hlen hslot hfree hcodes, if_pos hrange]; rfl
  · refine ⟨formOf r, rfl, rfl, rfl, rfl, rfl, formOf_copies r, rfl, rfl, formOf_bands r, formOf_tear r,
      fun hfits => ?_⟩
    have hroom : ¬skipTooTight (formOf r) = true := by
      rw [skipTooTight_iff]
      rintro ⟨hon, htight⟩
      rcases hfits with hoff | hle
      · exact Bool.false_ne_true (hoff.symm.trans hon)
      · omega
    refine ⟨storeForm r.slot.toNat (formOf r) s, (okOr (formOf r != sentForm r)).byte, ?_, okOr_byte_cases _, ?_,
      storeForm_forms .., fun hother => ?_, fun hactive => storeForm_active hactive rfl⟩
    · rw [hexec hopen, reqDefineForm_of_coded hlen hslot (by tauto) ⟨hpath, hskip, hbidir, hcount⟩, if_neg hroom]
    · rw [okOr_byte, ← formOf_eq_sentForm_iff]
      by_cases h : formOf r = sentForm r <;> simp [h]
    · rw [storeForm_forms]; exact storeForm_other hother

end Sys2Proof.Machine
end

section
/-! SET_TOF, and the paper-end sensor. -/

namespace Sys2Proof.Machine

section
variable {s : State}

theorem reqSetTof_of_busy (h : motionBusy s = true) : reqSetTof s = refuse .busy s := if_pos h

theorem reqSetTof_of_free (h : motionBusy s = false) : reqSetTof s = accept (settleTear (dropPark (zeroY s))) :=
  if_neg (Bool.not_eq_true _ ▸ h)

/-- Settles O19: the refusal of R118, else the top is declared and a park dropped. -/
theorem setTofDeclaresTop : Obligations.SetTofDeclaresTop := by
  intro s hopen
  have hexec : exec .setTof s
      = .next (replied 0x15#8 (reqSetTof s).code.byte (reqSetTof s).data (reqSetTof s).state) :=
    congrArg Host.Outcome.next (takeRequest_of_open hopen)
  refine ⟨_, motionBusy_iff s, fun hbusy => ?_, fun hfree => ?_⟩
  · rw [hexec, reqSetTof_of_busy hbusy]; rfl
  · rw [hexec, reqSetTof_of_free (Bool.eq_false_iff.2 hfree)]; rfl

/-! ## The paper-end sensor (spec/05 R102) -/

/-- While RESET_N is low the pin alone moves (log entry 16). -/
theorem paperGone_of_resetLow (h : s.pins.resetLow = true) :
    paperGone s = s.setPins { s.pins with paperSeen := false } := by
  unfold paperGone
  split
  · simp only [h]
  · next hseen => rw [← Bool.eq_false_iff.2 hseen]; rfl

theorem paperBack_of_resetLow (h : s.pins.resetLow = true) :
    paperBack s = s.setPins { s.pins with paperSeen := true } := by
  unfold paperBack
  split
  · next hseen => rw [← hseen]; rfl
  · simp only [h]

theorem paperGone_of_seen (hseen : s.pins.paperSeen = true) (hreset : s.pins.resetLow = false) : paperGone s =
    latch .paperEnd ((s.setPins { s.pins with paperSeen := false }).setPaper { s.paper with pe := some 540 }) := by
  simp only [paperGone, hseen, if_true, hreset, Bool.false_eq_true, if_false]
  rfl

theorem paperBack_of_gone (hseen : s.pins.paperSeen = false) (hreset : s.pins.resetLow = false) : paperBack s =
    settleTear ((s.setPins { s.pins with paperSeen := true }).setPaper { s.paper with
      pe := none, state := if s.paper.state = .out then .idle else s.paper.state }) := by
  simp only [paperBack, hseen, hreset, Bool.false_eq_true, if_false]
  rfl

end

/-- Settles O41: no paper sets PE and latches PAPER_END; paper clears PE and ends OUT. -/
theorem paperSensorChanges : Obligations.PaperSensorChanges := fun _ =>
  ⟨fun hseen hreset => congrArg Host.Outcome.next (paperGone_of_seen hseen hreset),
    fun hseen hreset => congrArg Host.Outcome.next (paperBack_of_gone hseen hreset),
    fun hreset => ⟨congrArg Host.Outcome.next (paperGone_of_resetLow hreset),
      congrArg Host.Outcome.next (paperBack_of_resetLow hreset)⟩⟩

end Sys2Proof.Machine
end

section
/-! The distances of a skip and of a form feed. -/

namespace Sys2Proof.Machine

section
variable {prof : Profile} {y : Nat}

theorem skipDistance_bounds (h : 0 < prof.length) :
    0 ≤ skipDistance prof y ∧ skipDistance prof y < prof.length :=
  ⟨Int.emod_nonneg _ (by omega), Int.emod_lt_of_pos _ (by omega)⟩

/-- The distance to the top margin reaches it. -/
theorem add_skipDistance (h : prof.top < prof.length) :
    ((y : Int) + skipDistance prof y) % prof.length = prof.top := by
  rw [skipDistance, Int.add_emod_emod, show (y : Int) + (prof.top - y) = prof.top by omega]
  exact Int.emod_eq_of_lt (by omega) (by omega)

/-- A skip has no distance only at the top margin. -/
theorem skipDistance_eq_zero_iff (htop : prof.top < prof.length) (hy : y < prof.length) :
    skipDistance prof y = 0 ↔ y = prof.top := by
  constructor
  · intro h
    have hreach := add_skipDistance (y := y) htop
    rw [h, add_zero, Int.emod_eq_of_lt (by omega) (by omega)] at hreach
    omega
  · rintro rfl
    simp [skipDistance]

theorem skipNeeded_iff : skipNeeded prof y = true ↔
    prof.skipOn = true ∧ (y < prof.top ∨ (prof.length : Int) - prof.skip ≤ y + 46) := by
  simp [skipNeeded]

/-- The skip check of R128 keeps the top margin itself clear of a skip. -/
theorem not_skipNeeded_top (h : skipTooTight prof = false) : skipNeeded prof prof.top = false := by
  rw [← Bool.not_eq_true, skipTooTight_iff] at h
  rw [← Bool.not_eq_true, skipNeeded_iff]
  rintro ⟨hon, hlt | hle⟩
  · omega
  · exact h ⟨hon, by omega⟩

theorem formFeedDistance_of_zero (h : skipDistance prof y = 0) : formFeedDistance prof y = prof.length := if_pos h

theorem formFeedDistance_of_ne (h : skipDistance prof y ≠ 0) : formFeedDistance prof y = skipDistance prof y :=
  if_neg h

end

/-- Y and the active profile of a sound configuration. -/
theorem activeProfile_sound {s : State} (h : formSound s = true) :
    (activeProfile s).sound = true ∧ s.paper.y < (activeProfile s).length := by
  obtain ⟨-, ⟨p, hp, hy⟩, hall⟩ := (formSound_iff s).1 h
  rw [activeProfile_of_slot hp]
  exact ⟨hall p (List.mem_of_getElem? hp), hy⟩

/-- Settles O47: both distances are (T − Y) mod L, which is 0 only at T. -/
theorem skipAndFormFeedReachTheirMark : Obligations.SkipAndFormFeedReachTheirMark := by
  refine ⟨fun s hs hneeded => ?_, fun prof y htop hy => ?_⟩
  · obtain ⟨hsound, hy⟩ := activeProfile_sound hs
    obtain ⟨-, ⟨-, htop⟩, -, -, -, -, -, -, htight⟩ := (Profile.sound_iff _).1 hsound
    have hclear := not_skipNeeded_top htight
    have hne : skipDistance (activeProfile s) s.paper.y ≠ 0 := fun h => by
      rw [(skipDistance_eq_zero_iff htop hy).1 h, hclear] at hneeded
      cases hneeded
    obtain ⟨hnonneg, hlt⟩ := skipDistance_bounds (prof := activeProfile s) (y := s.paper.y) (by omega)
    exact ⟨by omega, hlt, add_skipDistance htop, hclear⟩
  · obtain ⟨hnonneg, hlt⟩ := skipDistance_bounds (prof := prof) (y := y) (by omega)
    have hreach := add_skipDistance (y := y) htop
    by_cases h : skipDistance prof y = 0
    · rw [h, add_zero] at hreach
      rw [formFeedDistance_of_zero h, Int.add_emod_right]
      exact ⟨by omega, le_rfl, hreach, fun _ => rfl⟩
    · rw [formFeedDistance_of_ne h]
      exact ⟨by omega, by omega, hreach, fun heq => absurd ((skipDistance_eq_zero_iff htop hy).2 heq) h⟩

end Sys2Proof.Machine
end

section
/-! n feed units of one motion, summed. -/

namespace Sys2Proof.Machine

/-- The direction of a motion, as a feed unit counts it. -/
def Motion.sign (m : Motion) : Int := if 0 < m.distance then 1 else -1

section
variable {s : State} {m : Motion}

theorem issueUnit_motion (hstop : m.stop = none) :
    (issueUnit m s).paper.motion = some { m with moved := m.moved + 1 } := by
  simp [issueUnit, hstop]

theorem feedUnit_of_free (hm : s.paper.motion = some m) (hstop : m.stop = none) (hleft : m.moved < m.distance.natAbs)
    (hpe : 0 < m.distance → (issueUnit m s).paper.pe ≠ some 0) : feedUnit s = issueUnit m s := by
  have hmay : m.mayFeed = true := by simp [Motion.mayFeed, hstop, hleft]
  have hclear : ¬(0 < m.distance ∧ (issueUnit m s).paper.pe = some 0) := fun h => hpe h.1 h.2
  unfold feedUnit
  rw [hm]
  dsimp only
  rw [if_pos hmay, issueUnit_motion hstop]
  exact if_neg hclear

theorem issueUnit_pe_forward (h : 0 < m.distance) : (issueUnit m s).paper.pe = s.paper.pe.map (· - 1) := by
  simp [issueUnit, countdownUnit, h]

theorem issueUnit_y (h : 0 < (activeProfile s).length) :
    ((issueUnit m s).paper.y : Int) = ((s.paper.y : Int) + m.sign) % (activeProfile s).length := by
  obtain ⟨hforward, hback⟩ := offsetUnit_mod (len := (activeProfile s).length) s.paper.y
  by_cases hd : 0 < m.distance
  · simpa [issueUnit, Motion.sign, hd] using hforward
  · simpa [issueUnit, Motion.sign, hd, sub_eq_add_neg] using hback h

theorem issueUnit_tractor (ha : s.paper.a ≤ 2) (hpath : m.path = .tractor) :
    ((issueUnit m s).paper.a : Int) = (s.paper.a + 2 * m.sign) % 3
      ∧ (issueUnit m s).outputs.tractor = s.outputs.tractor + (s.paper.a + 2 * m.sign) / 3 := by
  obtain ⟨haf, htf, hab, htb⟩ := tractorUnit_div ha
  by_cases hd : 0 < m.distance
  · simp [issueUnit, Motion.sign, hpath, hd, haf, htf]
  · simp [issueUnit, Motion.sign, hpath, hd, hab, htb, sub_eq_add_neg]

theorem issueUnit_friction (hpath : m.path = .friction) :
    (issueUnit m s).paper.a = s.paper.a ∧ (issueUnit m s).outputs.tractor = s.outputs.tractor := by
  simp [issueUnit, hpath]

theorem issueUnit_platen : (issueUnit m s).outputs.platen = s.outputs.platen + m.sign := by
  simp [issueUnit, Motion.sign]

theorem issueUnit_a_le (ha : s.paper.a ≤ 2) : (issueUnit m s).paper.a ≤ 2 := by
  cases hpath : m.path with
  | tractor => have := (issueUnit_tractor ha hpath).1; omega
  | friction => rw [(issueUnit_friction hpath).1]; exact ha

end

theorem run_succ_of_step {n : Nat} {s t : State} (h : step s = .next t) :
    Host.Core.run core (n + 1) s = Host.Core.run core n t := by
  have : core.step s = .next t := h
  simp only [Host.Core.run, this]

/-- A feed unit at the front of the queue. -/
theorem step_feedUnit (s : State) (rest : List Instr) :
    step (s.setPending (.feedUnit :: rest)) = .next (feedUnit (s.setPending rest)) := rfl

/-- Settles O43, by induction on the number of units. -/
theorem feedUnitsGiveOneSum : Obligations.FeedUnitsGiveOneSum := by
  intro n
  induction n with
  | zero =>
    intro s m rest sign hm hstop hleft hsign hy ha hpe
    have hlt : ((s.paper.y : Int)) % (activeProfile s).length = s.paper.y := Int.emod_eq_of_lt (by omega) (by omega)
    refine ⟨s.setPending rest, rfl, rfl, ?_, fun _ => ⟨?_, ?_⟩, fun _ => ⟨rfl, rfl⟩, ?_, hm⟩
    · simpa using hlt.symm
    · show (s.paper.a : Int) = _
      rw [Nat.cast_zero, mul_zero, mul_zero]
      omega
    · show s.outputs.tractor = _
      rw [Nat.cast_zero, mul_zero, mul_zero]
      omega
    · simp
  | succ n ih =>
    intro s m rest sign hm hstop hleft hsign hy ha hpe
    have hsg : sign = m.sign := hsign
    subst hsg
    have hlen : 0 < (activeProfile s).length := by omega
    have hnext : 0 < m.distance → ∀ k, (issueUnit m s).paper.pe = some k → n < k := fun hd k hk => by
      rw [issueUnit_pe_forward hd, Option.map_eq_some_iff] at hk
      obtain ⟨j, hj, rfl⟩ := hk
      have := hpe hd j hj
      omega
    have hfeed : feedUnit (s.setPending (List.replicate n .feedUnit ++ rest))
        = (issueUnit m s).setPending (List.replicate n .feedUnit ++ rest) :=
      feedUnit_of_free hm hstop (by omega) fun hd hzero => by have := hnext hd 0 hzero; omega
    have hy1 := issueUnit_y (m := m) hlen
    obtain ⟨t, hrun, hpending, hty, htractor, hfriction, hplaten, hmotion⟩ :=
      ih (issueUnit m s) { m with moved := m.moved + 1 } rest m.sign (issueUnit_motion hstop) hstop
        (by show m.moved + 1 + n ≤ m.distance.natAbs; omega) rfl (offsetUnit_lt hlen) (issueUnit_a_le ha) hnext
    have hsum : m.sign * ((n + 1 : Nat) : Int) = m.sign + m.sign * n := by push_cast; ring
    refine ⟨t, ?_, hpending, ?_, fun hpath => ?_, fun hpath => ?_, ?_, ?_⟩
    · rw [← hrun, ← hfeed]
      exact run_succ_of_step (step_feedUnit s _)
    · rw [hty, hsum, hy1]
      show (_ % ((activeProfile s).length : Int) + _) % ((activeProfile s).length : Int) = _
      rw [Int.emod_add_emod, add_assoc]
    · obtain ⟨ha1, ht1⟩ := issueUnit_tractor ha hpath
      obtain ⟨ha2, ht2⟩ := htractor hpath
      rw [hsum]
      omega
    · obtain ⟨ha1, ht1⟩ := issueUnit_friction (s := s) hpath
      obtain ⟨ha2, ht2⟩ := hfriction hpath
      exact ⟨ha2.trans ha1, ht2.trans ht1⟩
    · rw [hplaten, issueUnit_platen, hsum, add_assoc]
    · rw [hmotion]
      simp [Nat.add_assoc, Nat.add_comm 1]

end Sys2Proof.Machine
end

section
/-! The orders for the head entry's advance. -/

namespace Sys2Proof.Machine

/-- The head entry is ADVANCING and its order is the next act: what an advance order is taken in. -/
def advanceReady (e : Entry) (rest : List Entry) (s : State) : State :=
  (firstOrderGiven s).setQueue ({ e with state := .advancing } :: rest)

section
variable {s : State} {e : Entry} {rest : List Entry}

theorem advanceOrder_of_held (h : held s = true) : advanceOrder s = s := by
  have hbusy : runnerFree s = false := runnerFree_of_held h
  unfold advanceOrder
  split
  · rfl
  · split
    · rfl
    · refine if_neg fun hready => ?_
      obtain ⟨-, -, hfree, -⟩ := hready
      exact Bool.false_ne_true (hbusy.symm.trans hfree)

theorem advanceEntryOrder_of_held (h : held s = true) (hdue : s.runner.firstOrderDue = false) :
    advanceEntryOrder s = s := by
  have hkept : mayOrderFirst s = false := by simp [mayOrderFirst, h, hdue]
  unfold advanceEntryOrder
  split
  · rfl
  · refine if_neg fun hready => ?_
    obtain ⟨-, -, -, hmay, -⟩ := hready
    exact Bool.false_ne_true (hkept.symm.trans hmay)

variable (hq : s.queue = e :: rest)

include hq

theorem advanceOrder_of_outstanding {p : Pass} (hp : e.pass = some p) (hdot : anyOutstanding s.pool p = true) :
    advanceOrder s = s := by
  simp [advanceOrder, hq, hp, hdot]

variable (hphase : s.runner.phase = .advance) (hstill : paperInFlight s = false)

include hphase hstill

theorem advanceOrder_of_clear {p : Pass} (hp : e.pass = some p) (hstate : e.state = .active ∨ e.state = .advancing)
    (hfree : runnerFree s = true) (hrest : carriageAtRest s = true) (hnone : anyOutstanding s.pool p = false) :
    advanceOrder s
      = settleTear (takeOrder (.entryAdvance e.tag) (advanceDistance s e) (advanceReady e rest s)) := by
  unfold advanceOrder
  simp only [hq, hp]
  rw [if_pos ⟨hphase, hstate, hfree, hrest, hstill, hnone⟩, setHeadState_cons (s := firstOrderGiven s) hq]
  rfl

theorem advanceEntryOrder_of_clear (hp : e.pass = none) (hstate : e.state = .advancing)
    (hmay : mayOrderFirst s = true) (hclear : advanceClear s = true) :
    advanceEntryOrder s
      = settleTear (takeOrder (.entryAdvance e.tag) (advanceDistance s e) (advanceReady e rest s)) := by
  have hready : advanceReady e rest s = firstOrderGiven s := by rw [advanceReady, ← hstate, ← hq]; rfl
  unfold advanceEntryOrder
  simp only [hq]
  rw [if_pos ⟨hp, hphase, hstate, hmay, hclear, hstill⟩, hready]

end

/-! ## The order as it is taken (spec/05 R95) -/

section
variable {s : State} {e : Entry} {rest : List Entry} {d : Int}

/-- An order that leaves an entry in the queue leaves the tear timer stopped. -/
theorem settleTear_of_cons {t : State} {x : Entry} {xs : List Entry} (h : t.queue = x :: xs) :
    settleTear t = t.setTime { t.time with tearIdle := none } :=
  settleTear_of_not (tearReady_of_queue (by simp [h]))

theorem advanceTaken_forward (h : 0 < d) (hpe : s.paper.pe ≠ some 0) :
    settleTear (takeOrder (.entryAdvance e.tag) d (advanceReady e rest s)) =
      ((advanceReady e rest s).setPaper { s.paper with
        state := .advancing, park := none
        motion := some { purpose := .entryAdvance e.tag, distance := d, moved := 0
                         path := (activeProfile s).path, stop := none } }).setTime
        { s.time with tearIdle := none } := by
  rw [takeOrder_forward (s := advanceReady e rest s) h hpe]
  exact settleTear_of_cons rfl

theorem advanceTaken_back (h : d < 0) :
    settleTear (takeOrder (.entryAdvance e.tag) d (advanceReady e rest s)) =
      ((advanceReady e rest s).setPaper { s.paper with
        state := .retracting, park := none
        motion := some { purpose := .entryAdvance e.tag, distance := d, moved := 0
                         path := (activeProfile s).path, stop := none } }).setTime
        { s.time with tearIdle := none } := by
  rw [takeOrder_back h]
  exact settleTear_of_cons rfl

/-- A forward order at PE 0 is stopped as it is taken (spec/05 R104, R105). -/
theorem advanceTaken_at_end (h : 0 < d) (hpe : s.paper.pe = some 0) :
    settleTear (takeOrder (.entryAdvance e.tag) d (advanceReady e rest s)) =
      { s with
        queue := { e with state := .advancing, remaining := some d } :: rest
        paper := { s.paper with state := .out, park := none, motion := none }
        runner := { s.runner with pause := true, firstOrderDue := false }
        events := { s.events with latched := s.events.latched ||| 0x080#12 }
        time := { s.time with tearIdle := none } } := by
  have hleft : Motion.left { purpose := .entryAdvance e.tag, distance := d, moved := 0
                             path := (activeProfile s).path, stop := none } = d := by simp [Motion.left]
  have hstop : takeOrder (.entryAdvance e.tag) d (advanceReady e rest s)
      = writeRemaining d (restPaper .out (setPause true (latch .paperOutStop (advanceReady e rest s)))) := by
    rw [takeOrder_at_end (s := advanceReady e rest s) h hpe]
    exact congrArg (writeRemaining · _) hleft
  rw [hstop, writeRemaining_of_ne (by omega), mapHead_cons rfl]
  exact settleTear_of_cons rfl

theorem retire_of_cons {t : State} {x : Entry} {xs : List Entry} (h : t.queue = x :: xs) :
    (retire t).queue = xs ∧ (retire t).pool = t.pool.releaseAll x.slots ∧ (retire t).runner.phase = .noPhase := by
  simp [retire_cons h]

/-- An order of distance 0 is complete as it is taken (spec/05 R95, spec/07 R149). -/
theorem advanceTaken_zero :
    ∃ t, settleTear (takeOrder (.entryAdvance e.tag) 0 (advanceReady e rest s)) = t ∧ t.queue = rest
      ∧ t.pool = s.pool.releaseAll e.slots ∧ t.runner.phase = .noPhase ∧ t.paper = s.paper
      ∧ t.carriage = s.carriage := by
  have htake : takeOrder (.entryAdvance e.tag) 0 (advanceReady e rest s) =
      retire ((advanceReady e rest s).setQueue ({ e with state := .advancing, remaining := none } :: rest)) := by
    have hhead : (advanceReady e rest s).queue = { e with state := .advancing } :: rest := rfl
    rw [takeOrder_zero, if_neg (by simp)]
    exact (writeRemaining_zero _).trans (congrArg retire (mapHead_cons hhead))
  obtain ⟨hqueue, hpool, hphase⟩ := retire_of_cons
    (t := (advanceReady e rest s).setQueue ({ e with state := .advancing, remaining := none } :: rest)) rfl
  refine ⟨_, rfl, ?_⟩
  rw [htake]
  refine ⟨by simpa using hqueue, ?_, by simpa using hphase, ?_, ?_⟩
  · rw [(settleTear_frame _).2.2.2.1, hpool]; rfl
  · simp [advanceReady, firstOrderGiven]
  · simp [advanceReady, firstOrderGiven]

end

/-- Settles O52: both orders are taken in `advanceReady`, with the entry's distance. -/
theorem advanceOrdersGiven : Obligations.AdvanceOrdersGiven := by
  refine ⟨fun c s e rest d hq hphase hpaper hc hd => ⟨fun hheld hlater => ?_, fun hrecover hmay hrest => ?_⟩,
    fun s e rest p hq hp hdot => congrArg Host.Outcome.next (advanceOrder_of_outstanding hq hp hdot),
    anyOutstanding_iff⟩
  · rcases hc with ⟨rfl, -, -⟩ | ⟨rfl, -, -⟩
    · exact congrArg Host.Outcome.next (advanceOrder_of_held hheld)
    · exact congrArg Host.Outcome.next (advanceEntryOrder_of_held hheld (hlater.resolve_left (by simp)))
  · have hstill : paperInFlight s = false := (PaperState.not_inFlight_iff _).2 (by tauto)
    have hdist : d = advanceDistance s e := by
      rw [hd]
      unfold advanceDistance
      cases e.remaining with
      | some n => rfl
      | none => cases e.advance <;> rfl
    have hexec : exec c s
        = .next (settleTear (takeOrder (.entryAdvance e.tag) d (advanceReady e rest s))) := by
      rw [hdist]
      rcases hc with ⟨rfl, ⟨p, hp, hnone⟩, hstate⟩ | ⟨rfl, hp, hstate⟩
      · have hfree : runnerFree s = true := (runnerFree_iff s).2 ⟨hmay.resolve_right (by simp), hrecover⟩
        have hat : carriageAtRest s = true := (CarState.atRest_iff _).2 (hrest.resolve_right (by simp))
        exact congrArg Host.Outcome.next (advanceOrder_of_clear hq hphase hstill hp hstate hfree hat hnone)
      · have hfirst : mayOrderFirst s = true := (mayOrderFirst_iff s).2 ⟨by tauto, hrecover⟩
        have hclear : advanceClear s = true := by
          rcases hrest with hat | ⟨-, happroach, hplan⟩
          · exact advanceClear_of_rest ((CarState.atRest_iff _).2 hat)
          · simp [advanceClear, happroach, Option.isSome_iff_ne_none, hplan]
        exact congrArg Host.Outcome.next (advanceEntryOrder_of_clear hq hphase hstill hp hstate hfirst hclear)
    rw [hexec]
    refine ⟨fun hpos hpe => ?_, fun hneg => ?_, fun hpos hpe => ?_, fun hzero => ?_⟩
    · rw [advanceTaken_forward hpos hpe]; rfl
    · rw [advanceTaken_back hneg]; rfl
    · rw [advanceTaken_at_end hpos hpe]
    · subst hzero
      obtain ⟨t, ht, hafter⟩ := advanceTaken_zero (s := s) (e := e) (rest := rest)
      exact ⟨t, congrArg Host.Outcome.next ht, hafter⟩

end Sys2Proof.Machine
end

section
/-! PREP's skip check, and MASKING. -/

namespace Sys2Proof.Machine

/-! ## PREP (spec/07 R140) -/

section
variable {s : State}

theorem prepCheck_of_needed (h : skipNeeded (activeProfile s) s.paper.y = true) :
    prepCheck s = s.setRunner { s.runner with point := .skipCheck } := if_pos h

theorem prepCheck_of_plan (h : skipNeeded (activeProfile s) s.paper.y = false) (hplan : s.runner.headPlan ≠ none) :
    prepCheck s = s.setRunner { s.runner with phase := .position } := by
  simp [prepCheck, h, Option.isSome_iff_ne_none, hplan]

theorem prepCheck_of_noPlan (h : skipNeeded (activeProfile s) s.paper.y = false) (hplan : s.runner.headPlan = none) :
    prepCheck s = s.setRunner { s.runner with point := .mask } := by
  simp [prepCheck, h, hplan]

variable (hphase : s.runner.phase = .prep) (hpoint : s.runner.point = .skipCheck)
  (hhead : headPrint s .active = true) (hstill : paperInFlight s = false)

include hphase hpoint hhead hstill

theorem prep_of_clear (h : skipNeeded (activeProfile s) s.paper.y = false) :
    prep s = prepCheck (firstOrderGiven s) := by
  unfold prep
  rw [if_pos ⟨hphase, hpoint, hhead, hstill⟩, h]
  exact if_neg Bool.false_ne_true

theorem prep_of_waiting (h : skipNeeded (activeProfile s) s.paper.y = true) (hmay : mayOrderFirst s = false) :
    prep s = s := by
  unfold prep
  rw [if_pos ⟨hphase, hpoint, hhead, hstill⟩, if_pos h, hmay]
  exact if_neg Bool.false_ne_true

theorem prep_of_needed (h : skipNeeded (activeProfile s) s.paper.y = true) (hmay : mayOrderFirst s = true) :
    prep s = takeOrder .skip (skipDistance (activeProfile s) s.paper.y) (firstOrderGiven s) := by
  unfold prep
  rw [if_pos ⟨hphase, hpoint, hhead, hstill⟩, if_pos h, if_pos hmay]

end

/-! ## MASKING (spec/07 R141, spec/01 R18) -/

theorem pastTail_iff (pe : Option Nat) (r : Nat) : pastTail pe r = true ↔ ∃ n, pe = some n ∧ n ≤ 2 * r := by
  cases pe <;> simp [pastTail]

theorem Band.covers_iff (b : Band) (f : Nat) : b.covers f = true ↔ b.top ≤ f ∧ f < b.top + b.height := by
  simp [Band.covers]

/-- The rows that the masks suppress (spec/01 R18). -/
theorem suppressedRows_getLsbD {prof : Profile} {y : Nat} {pe : Option Nat} {r : Nat} (hr : r < 24) :
    (suppressedRows prof y pe).getLsbD r = true ↔
      (∃ b ∈ prof.bands, b.top ≤ (y + 2 * r) % prof.length ∧ (y + 2 * r) % prof.length < b.top + b.height)
        ∨ ∃ n, pe = some n ∧ n ≤ 2 * r := by
  simp only [suppressedRows, rowsWhere_getLsbD, hr, decide_true, Bool.true_and, Bool.or_eq_true, List.any_eq_true,
    Band.covers_iff, pastTail_iff, formRow]

/-- The entry as masking leaves it with a set of suppressed rows. -/
def maskedPass (pool : Pool) (rows : Rows) (p : Pass) : Pass :=
  { p with suppressed := some rows, dotsSuppressed := dotsIn pool p rows }

theorem maskPass_of_unmasked {prof : Profile} {pool : Pool} {y : Nat} {pe : Option Nat} {p : Pass}
    (h : p.suppressed = none) : maskPass prof pool y pe p = maskedPass pool (suppressedRows prof y pe) p := by
  rw [maskPass_eq, if_pos h]; rfl

theorem maskPass_of_masked {prof : Profile} {pool : Pool} {y : Nat} {pe : Option Nat} {p : Pass}
    (h : p.suppressed ≠ none) : maskPass prof pool y pe p = p := by
  rw [maskPass_eq, if_neg h]

/-- With no dot marked, every dot is suppressed or outstanding (spec/10 R200). -/
theorem maskedPass_dots {pool : Pool} {p : Pass} {rows : Rows}
    (h : ∀ c, c < p.span → (passColumn pool p c).fired = 0#24 ∧ (passColumn pool p c).lost = 0#24) :
    (maskedPass pool rows p).dotsSuppressed
        + ((List.range p.span).map (fun c => rowCount (outstanding pool (maskedPass pool rows p) c))).sum
      = dotsHeld pool p := by
  have hmarks : ∀ c, c < p.span → (passColumn pool p c).marksSound rows = true := fun c hc => by
    simp [Column.marksSound, h c hc]
  have hadd := sumRows_dots hmarks
  rw [sumRows_zero (f := Column.fired) fun c hc => (h c hc).1,
    sumRows_zero (f := Column.lost) fun c hc => (h c hc).2] at hadd
  exact hadd

/-- The runner after masking (spec/07 R141). -/
def afterMaskingRunner (pool : Pool) (p : Pass) (r : Runner) : Runner :=
  if hasWork pool p then { r with point := .heat } else { r with phase := .advance, point := .skipCheck }

theorem afterMaskingRunner_work {pool : Pool} {p : Pass} (r : Runner) (h : hasWork pool p = true) :
    afterMaskingRunner pool p r = { r with point := .heat } := if_pos h

theorem afterMaskingRunner_done {pool : Pool} {p : Pass} (r : Runner) (h : hasWork pool p = false) :
    afterMaskingRunner pool p r = { r with phase := .advance, point := .skipCheck } :=
  if_neg (Bool.eq_false_iff.1 h)

theorem afterMasking_cons {s : State} {e : Entry} {rest : List Entry} {p : Pass} (hq : s.queue = e :: rest)
    (hp : e.pass = some p) : afterMasking s = s.setRunner (afterMaskingRunner s.pool p s.runner) := by
  simp only [afterMasking, hq, List.head?_cons, Option.bind_some, hp, afterMaskingRunner]
  split <;> rfl

section
variable {s : State} {e : Entry} {rest : List Entry} {p : Pass}
  (hq : s.queue = e :: rest) (hp : e.pass = some p)

include hq hp

theorem headMasked_cons : headMasked s = p.suppressed.isSome := by
  simp [headMasked, hq, hp]

theorem masking_of_paperEnd (hnew : p.suppressed = none) (hpe : s.paper.pe = some 0) : masking s = s := by
  unfold masking
  refine if_neg ?_
  simp [headMasked_cons hq hp, hnew, hpe]

variable (hstate : e.state = .active) (hphase : s.runner.phase = .prep) (hpoint : s.runner.point = .mask)

include hstate hphase hpoint

theorem masking_of_ready (h : p.suppressed ≠ none ∨ s.paper.pe ≠ some 0) :
    masking s = State.setRunner
      (s.setQueue ({ e with pass := some (maskPass (activeProfile s) s.pool s.paper.y s.paper.pe p) } :: rest))
      (afterMaskingRunner s.pool (maskPass (activeProfile s) s.pool s.paper.y s.paper.pe p) s.runner) := by
  have hready : headMasked s = true ∨ s.paper.pe ≠ some 0 := by
    rwa [headMasked_cons hq hp, Option.isSome_iff_ne_none]
  unfold masking
  rw [if_pos ⟨hphase, hpoint, headPrint_cons hq hp hstate, hready⟩, mapHeadPass_cons hq, hp]
  exact afterMasking_cons rfl rfl

end

/-- Settles O46: the skip check, the masks, and what a channel has to fire. -/
theorem prepAndMasking : Obligations.PrepAndMasking := by
  refine ⟨fun s e rest p hq hstate hp hphase hpoint hpaper => ?_,
    fun s e rest p hq hstate hp hphase hpoint => ⟨fun hnew hpe => ?_, fun hnew hpe => ?_, fun rows hrows => ?_⟩,
    fun pool p hplan => ?_⟩
  · have hstill : paperInFlight s = false := (PaperState.not_inFlight_iff _).2 (by tauto)
    have hhead : headPrint s .active = true := headPrint_cons hq hp hstate
    refine ⟨_, skipNeeded_iff, fun hclear hplan => ?_, fun plan hclear hplan => ?_,
      fun hneeded hheld hdue => ?_, fun d hneeded hrecover hmay hd hpos => ?_⟩
    · rw [Bool.not_eq_true] at hclear
      exact congrArg Host.Outcome.next
        ((prep_of_clear hphase hpoint hhead hstill hclear).trans (prepCheck_of_noPlan hclear hplan))
    · rw [Bool.not_eq_true] at hclear
      exact congrArg Host.Outcome.next ((prep_of_clear hphase hpoint hhead hstill hclear).trans
        (prepCheck_of_plan hclear (by simp [firstOrderGiven, hplan])))
    · exact congrArg Host.Outcome.next
        (prep_of_waiting hphase hpoint hhead hstill hneeded (by simp [mayOrderFirst, hheld, hdue]))
    · have hprep := prep_of_needed hphase hpoint hhead hstill hneeded ((mayOrderFirst_iff s).2 ⟨hmay, hrecover⟩)
      have hdist : skipDistance (activeProfile s) s.paper.y = d := hd.symm
      rw [hdist] at hprep
      exact ⟨fun hpe => congrArg Host.Outcome.next
          (hprep.trans (takeOrder_forward (s := firstOrderGiven s) hpos hpe)),
        fun hpe => congrArg Host.Outcome.next (hprep.trans (takeOrder_at_end (s := firstOrderGiven s) hpos hpe))⟩
  · exact congrArg Host.Outcome.next (masking_of_paperEnd hq hp hnew hpe)
  · have hmask := masking_of_ready hq hp hstate hphase hpoint (.inr hpe)
    rw [maskPass_of_unmasked hnew] at hmask
    exact ⟨suppressedRows (activeProfile s) s.paper.y s.paper.pe, _, _, rfl, congrArg Host.Outcome.next hmask,
      fun r hr => suppressedRows_getLsbD hr, maskedPass_dots, afterMaskingRunner_work s.runner,
      afterMaskingRunner_done s.runner⟩
  · have hmasked : p.suppressed ≠ none := by simp [hrows]
    have hmask := masking_of_ready hq hp hstate hphase hpoint (.inl hmasked)
    have hsame : ({ e with pass := some p } :: rest) = s.queue := by rw [hq, ← hp]
    rw [maskPass_of_masked hmasked, hsame] at hmask
    exact ⟨_, congrArg Host.Outcome.next hmask, afterMaskingRunner_work s.runner, afterMaskingRunner_done s.runner⟩
  · rw [hasWork_iff]
    refine exists_congr fun ch => exists_congr fun c => and_congr_right fun _ => and_congr_right fun _ =>
      and_congr_right fun _ => ?_
    rw [atOrBeyond_held_iff _ _ c (Plannable.resume hplan ch)]
    cases ch <;> rfl

end Sys2Proof.Machine
end

section
/-! The end of a paper motion, whole or stopped. -/

namespace Sys2Proof.Machine

/-! ## What a motion leaves -/

/-- The head entry retires with its advance, the paper coming to rest. -/
def advanceRetired (e : Entry) (rest : List Entry) (s : State) : State :=
  retire ((restPaper .idle s).setQueue ({ e with remaining := none } :: rest))

/-- The paper parks, and a head entry in RETRACT is given the retract at once (log entry 13). -/
def parked (d : Nat) (s : State) : State := giveRetract (parkAt d s)

/-- The paper comes to rest and the head entry goes on. -/
def entryGoesOn (e : Entry) (s : State) : State := (restPaper .idle s).setRunner
  (if e.pass.isSome then { s.runner with phase := .prep, point := .skipCheck }
    else { s.runner with phase := .advance })

section
variable {s : State} {e : Entry} {rest : List Entry}

theorem firstPhase_cons (hq : s.queue = e :: rest) : firstPhase s = s.setRunner
    (if e.pass.isSome then { s.runner with phase := .prep, point := .skipCheck }
      else { s.runner with phase := .advance }) := by
  simp only [firstPhase, hq, List.head?_cons, Option.any_some]
  split <;> rfl

theorem firstPhase_rest (hq : s.queue = e :: rest) : firstPhase (restPaper .idle s) = entryGoesOn e s :=
  firstPhase_cons (s := restPaper .idle s) hq

theorem writeRemaining_rest_zero (hq : s.queue = e :: rest) :
    writeRemaining 0 (restPaper .idle s) = advanceRetired e rest s :=
  (writeRemaining_zero _).trans (congrArg retire (mapHead_cons (s := restPaper .idle s) hq))

theorem prepCheck_eq (s : State) : prepCheck s = s.setRunner
    (if skipNeeded (activeProfile s) s.paper.y then { s.runner with point := .skipCheck }
      else if s.runner.headPlan = none then { s.runner with point := .mask }
      else { s.runner with phase := .position }) := by
  split_ifs with hneeded hplan
  · exact prepCheck_of_needed hneeded
  · exact prepCheck_of_noPlan (Bool.eq_false_iff.2 hneeded) hplan
  · exact prepCheck_of_plan (Bool.eq_false_iff.2 hneeded) hplan

/-- Retirement with the record list in its bounds (spec/07 R149, spec/08 R168, R169). -/
theorem advanceRetired_eq (h : s.events.records.length ≤ 8) : advanceRetired e rest s =
    { s with
      paper := { s.paper with state := .idle, park := none, motion := none }
      queue := rest
      pool := s.pool.releaseAll e.slots
      runner :=
        { s.runner with
          phase := .noPhase, point := .skipCheck, suspend := none, headPlan := none, firstOrderDue := false }
      events :=
        { s.events with
          latched := s.events.latched ||| (if s.events.records.length = 8 then 0x201#12 else 0x001#12)
          records := s.events.records.drop (if s.events.records.length = 8 then 1 else 0)
            ++ [completionOf e .done s] } } := by
  have hlatched : (s.events.latched ||| (if s.events.records.length = 8 then 0x200#12 else 0#12)) ||| 0x001#12
      = s.events.latched ||| (if s.events.records.length = 8 then 0x201#12 else 0x001#12) := by
    rw [BitVec.or_assoc]
    split <;> rfl
  have hpush := pushRecord_of_sound (completionOf e .done s)
    (s := (restPaper .idle s).setQueue ({ e with remaining := none } :: rest)) h
  refine (retire_cons rfl).trans ?_
  rw [← hlatched]
  exact congrArg (fun t => State.setEvents _ (latch .passDone t).events) hpush

theorem giveRetract_of_unparked (h : s.paper.state ≠ .tearParked) : giveRetract s = s := if_neg fun hs => h hs.2.1

/-! ## A park that stands (spec/05 R116, spec/07 R139) -/

/-- With no motion left, a fault keeps the runner waiting only by a carriage that brakes to a halt. -/
theorem recovering_parkAt (d : Nat) (s : State) : recovering (parkAt d s) = true ↔
    clearHoming s = true ∨ (s.carriage.state = .braking ∧ s.carriage.brake = some .halt) := by
  have hhoming : clearHoming (parkAt d s) = clearHoming s := rfl
  rw [recovering_iff, faultStopping_iff, hhoming]
  simp [parkAt]

theorem runnerFree_parkAt (d : Nat) (s : State) : runnerFree (parkAt d s) = true ↔
    held s = false ∧ clearHoming s = false ∧ ¬(s.carriage.state = .braking ∧ s.carriage.brake = some .halt) := by
  have hheld : held (parkAt d s) = held s := rfl
  rw [runnerFree_iff, hheld, ← Bool.not_eq_true (recovering _), recovering_parkAt, not_or, Bool.not_eq_true]

theorem parked_of_waiting {d : Nat} (h : s.runner.phase ≠ .retract ∨ held s = true ∨ clearHoming s = true
    ∨ (s.carriage.state = .braking ∧ s.carriage.brake = some .halt)) : parked d s = parkAt d s := by
  refine if_neg fun hgive => ?_
  obtain ⟨hphase, -, hfree⟩ := hgive
  obtain ⟨hheld, hhoming, hbrake⟩ := (runnerFree_parkAt d s).1 hfree
  rcases h with h | h | h | h
  · exact h hphase
  · exact Bool.false_ne_true (hheld.symm.trans h)
  · exact Bool.false_ne_true (hhoming.symm.trans h)
  · exact hbrake h

theorem parked_of_free {d : Nat} (hphase : s.runner.phase = .retract) (hheld : held s = false)
    (hhoming : clearHoming s = false) (hbrake : s.carriage.state = .braking → s.carriage.brake ≠ some .halt) :
    parked d s = takeOrder .retract (-(d : Int)) (parkAt d s) :=
  if_pos ⟨hphase, rfl, (runnerFree_parkAt d s).2 ⟨hheld, hhoming, fun h => hbrake h.1 h.2⟩⟩

/-- A retract of no distance is complete as it is taken. -/
theorem takeOrder_retract_zero (hq : s.queue = e :: rest) :
    takeOrder .retract (-((0 : Nat) : Int)) (parkAt 0 s) = entryGoesOn e s :=
  (takeOrder_zero .retract (parkAt 0 s)).trans (firstPhase_rest (s := parkAt 0 s) hq)

/-! ## A whole motion (spec/05 R99) -/

section
variable {m : Motion} (hm : s.paper.motion = some m) (hstop : m.stop = none)

include hm hstop

theorem paperMotionComplete_of_unfinished (h : m.moved ≠ m.distance.natAbs) : paperMotionComplete s = s := by
  simp [paperMotionComplete, hm, hstop, h]

theorem paperMotionComplete_of_whole (h : m.moved = m.distance.natAbs) :
    paperMotionComplete s = settleTear (giveRetract (completeMotion m s)) := by
  simp [paperMotionComplete, hm, hstop, h]

end

section
variable {m : Motion}

theorem giveRetract_completeMotion_advance {tag : Byte} (hp : m.purpose = .entryAdvance tag)
    (hq : s.queue = e :: rest) : giveRetract (completeMotion m s) = advanceRetired e rest s := by
  have hdone : completeMotion m s = advanceRetired e rest s := by
    unfold completeMotion
    rw [hp]
    exact writeRemaining_rest_zero hq
  rw [hdone]
  exact giveRetract_of_unparked (by simp [advanceRetired, restPaper])

theorem giveRetract_completeMotion_tear (hp : m.purpose = .tear) :
    giveRetract (completeMotion m s) = parked m.moved (latch .tearParked s) := by
  unfold completeMotion
  rw [hp]
  rfl

theorem giveRetract_completeMotion_skip (hp : m.purpose = .skip) :
    giveRetract (completeMotion m s) = prepCheck (restPaper .idle s) := by
  have hdone : completeMotion m s = prepCheck (restPaper .idle s) := by unfold completeMotion; rw [hp]; rfl
  rw [hdone]
  exact giveRetract_of_unparked (by simp [restPaper])

theorem giveRetract_entryGoesOn : giveRetract (entryGoesOn e s) = entryGoesOn e s :=
  giveRetract_of_unparked (by simp [entryGoesOn, restPaper])

theorem giveRetract_completeMotion_retract (hp : m.purpose = .retract) (hq : s.queue = e :: rest) :
    giveRetract (completeMotion m s) = entryGoesOn e s := by
  have hdone : completeMotion m s = entryGoesOn e s := by
    unfold completeMotion
    rw [hp]
    exact firstPhase_rest hq
  rw [hdone, giveRetract_entryGoesOn]

/-! ## A stopped motion (spec/05 R107, R108, R115) -/

theorem paperMotionComplete_of_stopped {x : PaperStop} (hm : s.paper.motion = some m) (hstop : m.stop = some x) :
    paperMotionComplete s = settleTear (giveRetract (endStopped m s)) := by
  simp [paperMotionComplete, hm, hstop]

theorem Motion.aborted_eq {x : PaperStop} (hstop : m.stop = some x) : m.aborted = (x.cause == .abort) := by
  simp [Motion.aborted, hstop]

theorem giveRetract_rest : giveRetract (restPaper .idle s) = restPaper .idle s :=
  giveRetract_of_unparked (by simp [restPaper])

theorem endStopped_skip (hp : m.purpose = .skip) : endStopped m s = restPaper .idle s := by
  unfold endStopped; rw [hp]

theorem endStopped_tear (hp : m.purpose = .tear) :
    endStopped m s = parkAt m.moved (latch .tearParked s) := by
  unfold endStopped; rw [hp]; rfl

theorem endStopped_advance {tag : Byte} (hp : m.purpose = .entryAdvance tag) : endStopped m s =
    if m.aborted then restPaper .idle s else writeRemaining m.left (restPaper .idle s) := by
  unfold endStopped; rw [hp]

theorem endStopped_retract (hp : m.purpose = .retract) : endStopped m s =
    if m.moved < m.distance.natAbs then parkAt (m.distance.natAbs - m.moved) s
    else if m.aborted then restPaper .idle s else firstPhase (restPaper .idle s) := by
  unfold endStopped; rw [hp]

theorem giveRetract_writeRemaining (left : Int) :
    giveRetract (writeRemaining left (restPaper .idle s)) = writeRemaining left (restPaper .idle s) :=
  giveRetract_of_unparked (by simp [restPaper])

end

end

/-- Settles O44: each purpose's end, whole and stopped, and the retract of a park that stands. -/
theorem motionEndReported : Obligations.MotionEndReported := by
  refine ⟨advanceRetired, parked, entryGoesOn, fun e rest s hs => advanceRetired_eq hs, fun e s => rfl,
    fun d s => ⟨parked_of_waiting, fun hphase hheld hhoming hbrake => ⟨fun hd => ?_, fun hd e rest hq => ?_⟩⟩,
    fun s m hm hstop => ⟨fun hleft => congrArg Host.Outcome.next (paperMotionComplete_of_unfinished hm hstop hleft),
      fun hwhole => ?_⟩,
    fun s m x hm hstop => ?_⟩
  · rw [parked_of_free hphase hheld hhoming hbrake]
    exact takeOrder_back (by omega)
  · subst hd
    rw [parked_of_free hphase hheld hhoming hbrake]
    exact takeOrder_retract_zero hq
  · have hexec : exec .paperMotionComplete s = .next (settleTear (giveRetract (completeMotion m s))) :=
      congrArg Host.Outcome.next (paperMotionComplete_of_whole hm hstop hwhole)
    rw [hexec]
    refine ⟨fun tag e rest hp hq _ => ?_, fun hp => ?_, fun hp => ?_, fun e rest hp hq => ?_⟩
    · rw [giveRetract_completeMotion_advance hp hq]
    · rw [giveRetract_completeMotion_tear hp]; rfl
    · rw [giveRetract_completeMotion_skip hp, prepCheck_eq]; rfl
    · rw [giveRetract_completeMotion_retract hp hq]
  · have hexec : exec .paperMotionComplete s = .next (settleTear (giveRetract (endStopped m s))) :=
      congrArg Host.Outcome.next (paperMotionComplete_of_stopped hm hstop)
    have haborted := Motion.aborted_eq hstop
    have hgoing : x.cause = .fault → ¬m.aborted = true := fun hx => by simp [haborted, hx]
    rw [hexec]
    refine ⟨fun hdropped => ?_, fun tag e rest left hx hp hq hleft => ?_, fun hp => ?_, fun hp hmore => ?_,
      fun e rest hx hp hdone hq => ?_⟩
    · have hend : endStopped m s = restPaper .idle s := by
        rcases hdropped with hp | ⟨hx, tag, hp⟩ | ⟨hx, hp, hdone⟩
        · exact endStopped_skip hp
        · rw [endStopped_advance hp, if_pos (by simp [haborted, hx])]
        · rw [endStopped_retract hp, if_neg (by omega), if_pos (by simp [haborted, hx])]
      rw [hend, giveRetract_rest]; rfl
    · have hend : giveRetract (endStopped m s) = writeRemaining left (restPaper .idle s) := by
        rw [endStopped_advance hp, if_neg (hgoing hx), giveRetract_writeRemaining, m.left_eq, ← hleft]
      rw [hend]
      refine ⟨fun hne => ?_, fun hzero _ => ?_⟩
      · rw [writeRemaining_of_ne hne, mapHead_cons (s := restPaper .idle s) hq]; rfl
      · rw [hzero, writeRemaining_rest_zero hq]
    · rw [endStopped_tear hp]; rfl
    · rw [endStopped_retract hp, if_pos hmore]; rfl
    · rw [endStopped_retract hp, if_neg (by omega), if_neg (hgoing hx), firstPhase_rest hq, giveRetract_entryGoesOn]

end Sys2Proof.Machine
end

section
/-! READ_FORM: the profile on the line, byte for byte. -/

namespace Sys2Proof.Machine

/-! ## Fields on the line (spec/09 R193) -/

theorem bytesLE_one_toNat (b : Byte) : bytesLE 1 b.toNat = [b] := by simp [bytesLE]

theorem bytesLE_two_toNat (h : Half) : bytesLE 2 h.toNat = halfBytes h := by
  have hlow : BitVec.ofNat 8 h.toNat = h.setWidth 8 := BitVec.eq_of_toNat_eq (by simp)
  have hhigh : BitVec.ofNat 8 (h.toNat / 256) = (h >>> 8).setWidth 8 :=
    BitVec.eq_of_toNat_eq (by simp [Nat.shiftRight_eq_div_pow])
  simp only [bytesLE, halfBytes, hlow, hhigh]

theorem half_toNat (lo hi : Byte) : (half lo hi).toNat = hi.toNat * 256 + lo.toNat := by
  have happend : (half lo hi).toNat = hi.toNat <<< 8 ||| lo.toNat := BitVec.toNat_append hi lo
  rw [happend, ← Nat.shiftLeft_add_eq_or_of_lt lo.isLt, Nat.shiftLeft_eq]

theorem halfBytes_half (lo hi : Byte) : halfBytes (half lo hi) = [lo, hi] := by
  have hlow : BitVec.ofNat 8 (half lo hi).toNat = lo :=
    BitVec.eq_of_toNat_eq (by rw [BitVec.toNat_ofNat, half_toNat]; omega)
  have hhigh : BitVec.ofNat 8 ((half lo hi).toNat / 256) = hi :=
    BitVec.eq_of_toNat_eq (by rw [BitVec.toNat_ofNat, half_toNat]; omega)
  rw [← bytesLE_two_toNat]
  simp only [bytesLE, hlow, hhigh]

/-- The bands read from whole band data give the data back. -/
theorem bandBytes_bandsOf : ∀ (n : Nat) (data : List Byte), data.length = 4 * n →
    (bandsOf data).flatMap (fun b => bytesLE 2 b.top ++ bytesLE 2 b.height) = data
  | 0, [], _ => rfl
  | n + 1, t0 :: t1 :: h0 :: h1 :: rest, h => by
    have ih := bandBytes_bandsOf n rest (by simp only [List.length_cons] at h; omega)
    simp only [bandsOf, List.flatMap_cons, ih, bytesLE_two_toNat, halfBytes_half]
    rfl

/-! ## The profile's bytes (spec/09 R196) -/

/-- A tractor definition as it was sent, spelled as a profile, gives the fields of its own request. -/
theorem profileBytes_sentProfile {r : FormRequest} {skipOn bidir : Bool} (hpath : r.path = 0#8)
    (hskip : r.skipOn = boolByte skipOn) (hbidir : r.bidir = boolByte bidir) (hcopies : r.copies.toNat < 16)
    (hlen : r.bandData.length = 4 * r.bandCount.toNat) :
    profileBytes (sentProfile .tractor skipOn bidir r) = (requestPayload (.defineForm r)).drop 1 := by
  have hsent : sentCopies r = r.copies.toNat := Nat.mod_eq_of_lt hcopies
  simp only [profileBytes, sentProfile, hsent, bandsOf_length _ _ hlen, bandBytes_bandsOf _ _ hlen,
    bytesLE_one_toNat, bytesLE_two_toNat, Option.map_some, Option.getD_some, requestPayload, hpath, hskip, hbidir]
  rfl

theorem profileBytes_of_tear {p : Profile} {idle offset : Nat} (hidle : (p.tear.map Tear.idle).getD 0 = idle)
    (hoffset : (p.tear.map Tear.offset).getD 0 = offset) :
    profileBytes p =
      [ pathCode p.path,
        BitVec.ofNat 8 p.length, BitVec.ofNat 8 (p.length / 256), BitVec.ofNat 8 p.top, BitVec.ofNat 8 (p.top / 256),
        BitVec.ofNat 8 p.skip, BitVec.ofNat 8 (p.skip / 256), boolByte p.skipOn,
        BitVec.ofNat 8 p.copies, BitVec.ofNat 8 p.cap, boolByte p.bidir,
        BitVec.ofNat 8 idle, BitVec.ofNat 8 (idle / 256), BitVec.ofNat 8 offset, BitVec.ofNat 8 (offset / 256),
        BitVec.ofNat 8 p.bands.length ]
      ++ p.bands.flatMap (fun b => bytesLE 2 b.top ++ bytesLE 2 b.height) := by
  subst hidle hoffset
  rfl

/-! ## READ_FORM (spec/06 R132) -/

section
variable {slot : Byte} {s : State}

theorem reqReadForm_of_range (h : 15 < slot.toNat) : reqReadForm slot s = refuse .range s := if_pos h

variable (hslot : slot.toNat ≤ 15)

include hslot

theorem reqReadForm_of_empty (h : s.forms.slots.getD slot.toNat none = none) :
    reqReadForm slot s = refuse .emptySlot s := by
  unfold reqReadForm
  rw [if_neg (by omega), h]

theorem reqReadForm_of_held {p : Profile} (h : s.forms.slots.getD slot.toNat none = some p) :
    reqReadForm slot s =
      { state := s, code := .ok
        data := flagsByte [slot.toNat == s.forms.active, p.tear.isSome] :: profileBytes p } := by
  unfold reqReadForm
  rw [if_neg (by omega), h]

end

theorem flagsByte_pair (a b : Bool) : flagsByte [a, b] = boolByte a ||| (boolByte b <<< 1) := by
  cases a <;> cases b <;> rfl

/-- Settles O17: the profile's fields are written by the bytes that a request carries them in. -/
theorem readFormReturnsDefinition : Obligations.ReadFormReturnsDefinition := by
  refine ⟨fun slot s hopen => ?_, fun r skipOn bidir hpath hskip hbidir hcopies hlen hheld => ?_,
    fun p idle offset hp => ?_⟩
  · have hexec : exec (.readForm slot) s
        = .next (replied 0x13#8 (reqReadForm slot s).code.byte (reqReadForm slot s).data (reqReadForm slot s).state) :=
      congrArg Host.Outcome.next (takeRequest_of_open hopen)
    refine ⟨fun hrange => ?_, fun hslot hempty => ?_, fun hslot p hp => ?_⟩
    · rw [hexec, reqReadForm_of_range hrange]; rfl
    · rw [hexec, reqReadForm_of_empty hslot hempty]; rfl
    · rw [hexec, reqReadForm_of_held hslot hp, ← flagsByte_pair]; rfl
  · rw [hheld]
    exact profileBytes_sentProfile hpath hskip hbidir hcopies hlen
  · rcases hp with ⟨hpath, htear⟩ | ⟨hpath, htear, rfl, rfl⟩
    · rw [profileBytes_of_tear (idle := idle) (offset := offset) (by rw [htear]; rfl) (by rw [htear]; rfl), hpath]
      rfl
    · rw [profileBytes_of_tear (idle := 0) (offset := 0) (by rw [htear]; rfl) (by rw [htear]; rfl), hpath]
      rfl

end Sys2Proof.Machine
end

section
/-! SELECT_FORM: the order of its checks, and the switch of the active form. -/

namespace Sys2Proof.Machine

/-- The slot is active, Y is 0 and a park is dropped: the switch of R134 before the tear timer starts afresh. -/
def formSelected (slot : Nat) (s : State) : State :=
  dropPark (zeroY (s.setForms { s.forms with active := slot }))

/-- What keeps a form from being selected (spec/06 R133). -/
def SelectBusy (s : State) : Prop := s.queue ≠ [] ∨ paperInFlight s = true ∨ carriageAtRest s = false

theorem selectBusy_iff (s : State) : SelectBusy s ↔
    s.queue ≠ [] ∨ s.paper.state = .advancing ∨ s.paper.state = .retracting
      ∨ (s.carriage.state ≠ .idle ∧ s.carriage.state ≠ .unhomed) := by
  rw [SelectBusy, paperInFlight, PaperState.inFlight_iff, carriageAtRest, CarState.not_atRest_iff, or_assoc]

section
variable {slot : Byte} {s : State} {p : Profile}

theorem reqSelectForm_of_range (h : 15 < slot.toNat) : reqSelectForm slot s = refuse .range s := if_pos h

theorem reqSelectForm_of_busy (hslot : slot.toNat ≤ 15) (hbusy : SelectBusy s) :
    reqSelectForm slot s = refuse .busy s :=
  (if_neg (by omega)).trans (if_pos hbusy)

theorem reqSelectForm_of_empty (hslot : slot.toNat ≤ 15) (hfree : ¬SelectBusy s)
    (h : s.forms.slots.getD slot.toNat none = none) : reqSelectForm slot s = refuse .emptySlot s := by
  refine (if_neg (by omega)).trans ((if_neg hfree).trans ?_)
  rw [h]

theorem reqSelectForm_of_held (hslot : slot.toNat ≤ 15) (hfree : ¬SelectBusy s)
    (h : s.forms.slots.getD slot.toNat none = some p) :
    reqSelectForm slot s = accept (settleTear (stopTear (formSelected slot.toNat s))) := by
  refine (if_neg (by omega)).trans ((if_neg hfree).trans ?_)
  rw [h]
  rfl

end

section
variable {slot : Nat} {s : State} {p : Profile}

theorem activeProfile_formSelected (h : s.forms.slots.getD slot none = some p) :
    activeProfile (formSelected slot s) = p := congrArg (Option.getD · Profile.default) h

theorem formSelected_paper_idle_iff : (formSelected slot s).paper.state = .idle ↔
    s.paper.state = .idle ∨ s.paper.state = .tearParked := by
  show (if s.paper.state = .tearParked then PaperState.idle else s.paper.state) = .idle ↔ _
  split <;> simp [*]

/-- The tear timer's conditions under the selected form (spec/05 R110): a park counts as rest, being dropped. -/
theorem tearReady_formSelected_iff (hreset : s.pins.resetLow = false) (hfree : ¬SelectBusy s)
    (h : s.forms.slots.getD slot none = some p) : tearReady (formSelected slot s) = true ↔
      p.path = .tractor ∧ tearIdleOf p ≠ 0 ∧ (s.paper.state = .idle ∨ s.paper.state = .tearParked)
        ∧ s.runner.fault = none ∧ s.runner.pause = false := by
  have hqueue : s.queue = [] := by_contra fun hq => hfree (.inl hq)
  have hrest : s.carriage.state = .idle ∨ s.carriage.state = .unhomed :=
    (CarState.atRest_iff _).1 (Bool.not_eq_false _ ▸ fun hmove => hfree (.inr (.inr hmove)))
  rw [tearReady_iff, activeProfile_formSelected h, formSelected_paper_idle_iff, tearIdleOf_ne_zero_iff]
  simp only [formSelected, dropPark, zeroY, setPaper_pins, setForms_pins, setPaper_queue, setForms_queue,
    setPaper_carriage, setForms_carriage, setPaper_runner, setForms_runner, hreset, hqueue, hrest]
  tauto

end

/-- Settles O18: the checks of R133 in order, else the switch of R134. -/
theorem selectFormSwitches : Obligations.SelectFormSwitches := by
  intro slot s hopen
  have hexec : exec (.selectForm slot) s = .next
      (replied 0x14#8 (reqSelectForm slot s).code.byte (reqSelectForm slot s).data (reqSelectForm slot s).state) :=
    congrArg Host.Outcome.next (takeRequest_of_open hopen)
  refine ⟨SelectBusy s, selectBusy_iff s, fun hrange => ?_, fun hslot hbusy => ?_, fun hslot hfree hempty => ?_,
    fun hslot hfree p hp => ?_⟩
  · rw [hexec, reqSelectForm_of_range hrange]; rfl
  · rw [hexec, reqSelectForm_of_busy hslot hbusy]; rfl
  · rw [hexec, reqSelectForm_of_empty hslot hfree hempty]; rfl
  · obtain ⟨hreset, -⟩ := (linkOpen_iff s).1 hopen
    rw [hexec, reqSelectForm_of_held hslot hfree hp, settleTear_stopTear, activeProfile_formSelected hp]
    simp only [tearReady_formSelected_iff hreset hfree hp]
    rfl

end Sys2Proof.Machine
end

section
/-! POSITION and SWEEP_ORDER: the homing, the plan and its approach, and the sweep order of the head print entry. -/

namespace Sys2Proof.Machine

/-- The runner may act for the head print entry in POSITION: nothing holds it, and the carriage is at rest (spec/07 R143,
R144). -/
structure AtPosition (s : State) : Prop where
  phase : s.runner.phase = .position
  head : headPrint s .active = true
  free : runnerFree s = true
  rest : carriageAtRest s = true

section
variable {s : State}

theorem position_of_not_free (h : runnerFree s = false) : position s = s :=
  if_neg fun ⟨_, _, _, hfree, _⟩ => Bool.false_ne_true (h.symm.trans hfree)

theorem sweepOrder_of_not_free (h : runnerFree s = false) : sweepOrder s = s := by
  unfold sweepOrder
  split
  · rfl
  · exact if_neg fun ⟨_, _, hfree, _⟩ => Bool.false_ne_true (h.symm.trans hfree)

/-! ## Planning the head's sweep (spec/07 R143) -/

variable {e : Entry} {rest : List Entry} {p : Pass} {place : Nat} {plan : Plan}

theorem planHead_of_noColumn (h : planSweep s e.tag p place = .noColumn) :
    planHead e p place s = s.setRunner { s.runner with phase := .advance } := by simp only [planHead, h]

theorem planHead_of_tooHot (h : planSweep s e.tag p place = .tooHot) :
    planHead e p place s = s.setRunner { s.runner with phase := .coolWait } := by simp only [planHead, h]

/-- The plan is held for the head entry, which keeps its direction. -/
def headPlanned (e : Entry) (rest : List Entry) (p : Pass) (plan : Plan) (s : State) : State :=
  { s with
    queue := { e with pass := some { p with dir := some plan.dir } } :: rest
    runner := { s.runner with headPlan := some plan } }

theorem planHead_of_made (hq : s.queue = e :: rest) (hp : e.pass = some p)
    (h : planSweep s e.tag p place = .made plan) :
    planHead e p place s = approachOrder plan.start.toNat (headPlanned e rest p plan s) := by
  simp only [planHead, h]
  rw [mapHeadPass_cons (by exact hq), hp]
  rfl

section
variable (h : AtPosition s)

include h

/-! ## POSITION (spec/07 R143) -/

section
variable (hnone : s.runner.headPlan = none) (hidle : driverIdle s = true)

include hnone hidle

/-- An invalid position is homed on the runner's behalf; a carriage in motion stops the tear timer. -/
theorem position_of_lost (hpos : s.carriage.pos = none) : position s
    = (homingOrder .runner s).setTime { s.time with stall := some 20, tearIdle := none } := by
  have hmoves : tearReady (homingOrder .runner s) = false := tearReady_of_moving rfl
  unfold position
  rw [if_pos ⟨h.phase, hnone, h.head, h.free, h.rest, hidle⟩, hpos]
  exact settleTear_of_not hmoves

theorem position_of_placed (hq : s.queue = e :: rest) (hp : e.pass = some p) (hpos : s.carriage.pos = some place) :
    position s = planHead e p place s := by
  unfold position
  rw [if_pos ⟨h.phase, hnone, h.head, h.free, h.rest, hidle⟩, hpos, hq]
  simp only [List.head?_cons, hp]

end

/-! ## SWEEP_ORDER (spec/07 R144) -/

section
variable (hplan : s.runner.headPlan = some plan) (hstill : paperInFlight s = false)

include hplan hstill

theorem sweepOrder_of_lost (hpos : s.carriage.pos = none) :
    sweepOrder s = s.setRunner { s.runner with headPlan := none } := by
  simp only [sweepOrder, hplan]
  rw [if_pos ⟨h.phase, h.head, h.free, h.rest, hstill⟩, hpos]

theorem sweepOrder_of_placed (hpos : s.carriage.pos = some place) : sweepOrder s
    = if plan.start = place then giveSweep plan s else approachOrder plan.start.toNat s := by
  simp only [sweepOrder, hplan, eq_comm (a := plan.start)]
  rw [if_pos ⟨h.phase, h.head, h.free, h.rest, hstill⟩, hpos]

end

end

end

/-- Settles O49: an invalid position is homed; with a valid one each answer of planning is an equation. -/
theorem positionHomesOrPlans : Obligations.PositionHomesOrPlans := by
  intro s e rest p hq hstate hp hphase hnone hfree hrest hidle
  have hready : AtPosition s := ⟨hphase, headPrint_cons hq hp hstate, hfree, (CarState.atRest_iff _).2 hrest⟩
  refine ⟨fun hpos => congrArg Host.Outcome.next (position_of_lost hready hnone hidle hpos),
    fun place hpos => ?_⟩
  have hexec : exec .position s = .next (planHead e p place s) :=
    congrArg Host.Outcome.next (position_of_placed hready hnone hidle hq hp hpos)
  rw [hexec]
  refine ⟨fun h => congrArg Host.Outcome.next (planHead_of_noColumn h),
    fun h => congrArg Host.Outcome.next (planHead_of_tooHot h), fun plan h => ?_⟩
  rw [planHead_of_made hq hp h]
  refine ⟨headPlanned e rest p plan s, rfl, fun hthere => ?_, fun helse => ?_⟩
  · exact congrArg Host.Outcome.next (approachOrder_of_there (by rw [hthere]; exact hpos))
  · have hplace : s.carriage.pos ≠ some plan.start.toNat := by simpa [hpos] using Ne.symm helse
    exact congrArg Host.Outcome.next (approachOrder_of_elsewhere (by exact hplace))

/-- Settles O51: the order is given at the plan's start alone; an approach is given anew elsewhere. -/
theorem sweepOrderGivesRunUp : Obligations.SweepOrderGivesRunUp := by
  intro s e rest p plan hq hstate hp hphase hplan hpaper
  have hstill : paperInFlight s = false := (PaperState.not_inFlight_iff _).2 (by tauto)
  refine ⟨fun hheld => congrArg Host.Outcome.next (sweepOrder_of_not_free (runnerFree_of_held hheld)),
    fun hfree hrest => ?_⟩
  have hready : AtPosition s := ⟨hphase, headPrint_cons hq hp hstate, hfree, (CarState.atRest_iff _).2 hrest⟩
  have hexec : ∀ {place : Nat}, s.carriage.pos = some place → exec .sweepOrder s
      = .next (if plan.start = place then giveSweep plan s else approachOrder plan.start.toNat s) := fun hpos =>
    congrArg Host.Outcome.next (sweepOrder_of_placed hready hplan hstill hpos)
  refine ⟨fun hpos => congrArg Host.Outcome.next (sweepOrder_of_lost hready hplan hstill hpos),
    fun place hpos hthere => ?_, fun place hpos helse hinside => ?_⟩
  · rw [hexec hpos, if_pos hthere]; rfl
  · have hplace : s.carriage.pos ≠ some plan.start.toNat := by simp only [hpos, ne_eq, Option.some.injEq]; omega
    rw [hexec hpos, if_neg helse, approachOrder_of_elsewhere hplace]; rfl

end Sys2Proof.Machine
end

section
/-! PAUSE, RESUME and the cover: the holds they set and clear. -/

namespace Sys2Proof.Machine

section
variable {s : State}

theorem coverOpens_of_open (h : s.pins.coverOpen = true) : coverOpens s = s := if_pos h

theorem coverOpens_of_closed (h : s.pins.coverOpen = false) :
    coverOpens s = suspendTrigger .hold (s.setPins { s.pins with coverOpen := true }) := by simp [coverOpens, h]

/-- Outside a run-up and a sweep the opening of the cover moves the pin alone. -/
theorem coverOpens_elsewhere (hrunup : s.carriage.state ≠ .runup) (hsweep : s.carriage.state ≠ .sweep) :
    coverOpens s = s.setPins { s.pins with coverOpen := true } := by
  cases hcover : s.pins.coverOpen with
  | false =>
    rw [coverOpens_of_closed hcover]
    exact suspendTrigger_elsewhere hrunup hsweep
  | true =>
    rw [coverOpens_of_open hcover, ← hcover]
    rfl

end

/-- Settles O25: outside a run-up and a sweep the suspend trigger has no effect, and the flag alone is set. -/
theorem holdsSetAndCleared : Obligations.HoldsSetAndCleared := by
  intro s
  refine ⟨fun hopen hrunup hsweep => ?_, fun hopen => congrArg Host.Outcome.next (takeRequest_of_open hopen),
    fun hrunup hsweep => congrArg Host.Outcome.next (coverOpens_elsewhere hrunup hsweep), rfl⟩
  have htrigger : suspendTrigger .hold (setPause true s) = setPause true s := suspendTrigger_elsewhere hrunup hsweep
  refine (congrArg Host.Outcome.next (takeRequest_of_open hopen)).trans ?_
  simp only [reqPause, htrigger, settleTear_of_not (tearReady_of_pause (s := setPause true s) rfl)]
  rfl

end Sys2Proof.Machine
end

section
/-! ABORT: the record, the emptied queue, and the two motions it stops; ENTRY_ABORTED. -/

namespace Sys2Proof.Machine

/-! ## The record of the started head entry (spec/07 R154) -/

/-- ABORT writes a record: the head entry has been taken up. -/
def leavesRecord (s : State) : Bool := s.queue.head?.any (fun e => e.state.started)

section
variable {s : State} {e : Entry} {rest : List Entry}

theorem leavesRecord_iff (s : State) :
    leavesRecord s = true ↔ ∃ e rest, s.queue = e :: rest ∧ e.state ≠ .opened ∧ e.state ≠ .ready := by
  cases hq : s.queue with
  | nil => simp [leavesRecord, hq]
  | cons e rest => simp [leavesRecord, hq, EntryState.started_iff]

theorem recordAborted_of_waiting (h : leavesRecord s = false) : recordAborted s = s := by
  unfold recordAborted
  cases hq : s.queue with
  | nil => rfl
  | cons e rest => exact if_neg (by simpa [leavesRecord, hq] using h)

theorem recordAborted_of_started (hq : s.queue = e :: rest) (h : leavesRecord s = true) :
    recordAborted s = pushRecord (completionOf e .aborted s) s := by
  simp only [leavesRecord, hq, List.head?_cons, Option.any_some] at h
  simp only [recordAborted, hq, h, if_true]

variable (hroom : s.events.records.length ≤ 8)

include hroom

theorem recordAborted_records (hq : s.queue = e :: rest) (h : leavesRecord s = true) :
    (recordAborted s).events.records = s.events.records.drop (if s.events.records.length = 8 then 1 else 0)
      ++ [completionOf e .aborted s] := by
  rw [recordAborted_of_started hq h, pushRecord_of_sound _ hroom]; rfl

theorem recordAborted_latched : (recordAborted s).events.latched = s.events.latched
    ||| (if leavesRecord s && decide (s.events.records.length = 8) then 0x200#12 else 0#12) := by
  cases h : leavesRecord s with
  | false => rw [recordAborted_of_waiting h]; exact BitVec.or_zero.symm
  | true =>
    obtain ⟨e, rest, hq, -⟩ := (leavesRecord_iff s).1 h
    rw [recordAborted_of_started hq h, pushRecord_of_sound _ hroom]
    simp only [Bool.true_and, decide_eq_true_eq]
    rfl

theorem recordAborted_mask : (recordAborted s).events.mask = s.events.mask := by
  cases h : leavesRecord s with
  | false => rw [recordAborted_of_waiting h]
  | true =>
    obtain ⟨e, rest, hq, -⟩ := (leavesRecord_iff s).1 h
    rw [recordAborted_of_started hq h, pushRecord_of_sound _ hroom]
    rfl

end

/-! ## The carriage and the driver (spec/03 R70) -/

section
variable (s : State)

/-- The driver's pending bursts are dropped, and the one that runs goes on without its entry. -/
theorem abortCarriage_orphans : (abortCarriage s).driver = { s.driver with
    pendA := none, pendB := none
    running := s.driver.running.map (fun r => { r with burst := { r.burst with orphan := true } }) } := by
  unfold abortCarriage
  dsimp only
  split <;> rfl

variable {s}

theorem abortCarriage_of_rest (h : s.carriage.state = .idle ∨ s.carriage.state = .unhomed) :
    (abortCarriage s).carriage = { s.carriage with resumeDue := none } := by
  have hrest : carriageAtRest s = true := (CarState.atRest_iff _).2 h
  simp only [abortCarriage, hrest, if_true]
  rfl

theorem abortCarriage_of_moving (h : s.carriage.state ≠ .idle) (h' : s.carriage.state ≠ .unhomed) :
    (abortCarriage s).carriage =
      { state := .braking, pos := if s.carriage.state = .homing then none else s.carriage.pos
        drive := s.carriage.drive, homing := none, target := none, plan := none, chanA := Channel.empty
        chanB := Channel.empty, brake := some .abort, resumeDue := none } := by
  have hmoves : carriageAtRest s = false := (CarState.not_atRest_iff _).2 ⟨h, h'⟩
  simp only [abortCarriage, hmoves]
  rfl

end

/-! ## The whole of ABORT (spec/07 R154, R155) -/

/-- The runner as ABORT leaves it: the pause flag and a latched fault stay, all else goes. -/
def abortRunner (s : State) : Runner where
  phase := .noPhase
  point := .skipCheck
  suspend := none
  headPlan := none
  lookAhead := none
  pause := s.runner.pause
  fault := s.runner.fault
  abortPending := anyMotion s
  homingOwed := false
  firstOrderDue := false

/-- The record is written, the queue empty and the runner cleared; the motions are still to be stopped. -/
def abortEmptied (s : State) : State := (emptyQueue (recordAborted s)).setRunner (abortRunner s)

section
variable (s : State)

theorem emptyQueue_eq : emptyQueue s =
    { s with
      queue := [], pool := s.pool.releaseAll (s.queue.flatMap Entry.slots)
      time := { s.time with window := none } } := by
  unfold emptyQueue
  rw [freeEntries_eq]
  rfl

theorem abortAll_eq : abortAll s = if anyMotion s then stopPaper .abort (abortCarriage (abortEmptied s))
    else latch .entryAborted (stopPaper .abort (abortCarriage (abortEmptied s))) := by
  have hrunner : (emptyQueue (recordAborted s)).runner = s.runner := by simp
  unfold abortAll abortEmptied abortRunner
  simp only [hrunner]

/-- ENTRY_ABORTED, latched or not, is all that an ABORT does after its stops, and it is in the Event Unit alone. -/
theorem abortAll_blocks : (abortAll s).queue = [] ∧ (abortAll s).pool = s.pool.releaseAll (s.queue.flatMap Entry.slots)
    ∧ (abortAll s).runner = abortRunner s ∧ (abortAll s).time = { s.time with window := none }
    ∧ (abortAll s).paper = (stopPaper .abort s).paper
    ∧ (abortAll s).carriage = (abortCarriage (abortEmptied s)).carriage
    ∧ (abortAll s).driver = (abortCarriage (abortEmptied s)).driver := by
  have hpaper : (stopPaper .abort (abortCarriage (abortEmptied s))).paper = (stopPaper .abort s).paper :=
    stopPaper_paper (by simp [abortEmptied]) _
  have hemptied : (abortEmptied s).queue = [] ∧ (abortEmptied s).pool = s.pool.releaseAll (s.queue.flatMap Entry.slots)
      ∧ (abortEmptied s).runner = abortRunner s ∧ (abortEmptied s).time = { s.time with window := none } := by
    simp [abortEmptied, emptyQueue_eq]
  rw [abortAll_eq]
  split <;> simp [hpaper, hemptied]

theorem abortAll_events : (abortAll s).events = { (recordAborted s).events with
    latched := (recordAborted s).events.latched ||| (if anyMotion s then 0#12 else 0x002#12) } := by
  have hemptied : (abortEmptied s).events = (recordAborted s).events := by simp [abortEmptied]
  rw [abortAll_eq]
  split
  · simp [hemptied]
  · simp only [latch_eq, setEvents_events, stopPaper_frame, abortCarriage_frame, hemptied]; rfl

end

/-- Settles O27: ABORT acts on each block by itself; the events are those of the record and of an ABORT that finds
nothing moving. -/
theorem abortStopsEverything : Obligations.AbortStopsEverything := by
  refine ⟨fun s hopen hroom => ⟨abortAll s, anyMotion s, leavesRecord s, decide (s.events.records.length = 8),
    congrArg Host.Outcome.next (takeRequest_of_open hopen), anyMotion_iff s, leavesRecord_iff s, decide_eq_true_iff,
    ?_⟩,
    fun s hpending hrest hpaper => ?_⟩
  · obtain ⟨hqueue, hpool, hrunner, htime, hpaper, hcar, hdrv⟩ := abortAll_blocks s
    obtain ⟨hlink, hmech, hheat, hforms, hpins, houtputs, hcommands⟩ := abortAll_frame s
    have hemptied : (abortEmptied s).carriage = s.carriage ∧ (abortEmptied s).driver = s.driver := by
      simp [abortEmptied]
    obtain ⟨hcar', hdrv'⟩ := hemptied
    have hevents := abortAll_events s
    refine ⟨hqueue, hpool, hrunner, ?_, ?_, fun e rest hq hopened hready => ?_, fun hwait => ?_, ?_, fun hstill => ?_,
      fun hidle hunhomed => ?_, fun hm => ?_, fun m hm hstop => ?_, fun m x hm hstop => ?_, htime, hlink, hmech, hheat,
      hforms, hpins, houtputs, hcommands⟩
    · rw [hevents]; exact recordAborted_mask hroom
    · rw [hevents, ← recordAborted_latched hroom]
    · have hstarted : leavesRecord s = true := (leavesRecord_iff s).2 ⟨e, rest, hq, hopened, hready⟩
      rw [hevents]
      simp only [decide_eq_true_eq]
      exact recordAborted_records hroom hq hstarted
    · have hnot : leavesRecord s = false := by
        rw [← Bool.not_eq_true, leavesRecord_iff]
        rintro ⟨e, rest, hq, hopened, hready⟩
        exact (hwait e rest hq).elim hopened hready
      rw [hevents, recordAborted_of_waiting hnot]
    · rw [hdrv, abortCarriage_orphans, hdrv']
    · rw [hcar, abortCarriage_of_rest (by rwa [hcar']), hcar']
    · rw [hcar, abortCarriage_of_moving (by rwa [hcar']) (by rwa [hcar']), hcar']; rfl
    · rw [hpaper, stopPaper_none hm]
    · rw [hpaper, stopPaper_going hm hstop]; rfl
    · rw [hpaper, stopPaper_stopping hm hstop]; rfl
  · have hat : carriageAtRest s = true := (CarState.atRest_iff _).2 hrest
    have hstill : paperInFlight s = false := (PaperState.not_inFlight_iff _).2 (by tauto)
    exact congrArg Host.Outcome.next (if_pos ⟨hpending, hat, hstill⟩)

end Sys2Proof.Machine
end

section
/-! TAKE_UP: the READY head entry and its first phase, and the retract that is owed to a head entry in RETRACT. -/

namespace Sys2Proof.Machine

section
variable {s : State} {e : Entry} {rest : List Entry}

/-! ## The retract of a park (spec/07 R139, spec/05 R116) -/

theorem giveRetract_of_phase (h : s.runner.phase ≠ .retract) : giveRetract s = s := if_neg fun ⟨hphase, _⟩ => h hphase

theorem giveRetract_of_not_free (h : runnerFree s = false) : giveRetract s = s :=
  if_neg fun ⟨_, _, hfree⟩ => Bool.false_ne_true (h.symm.trans hfree)

section
variable {d : Nat} (hphase : s.runner.phase = .retract) (hparked : s.paper.state = .tearParked)
  (hpark : s.paper.park = some d) (hfree : runnerFree s = true)

include hphase hparked hpark hfree

theorem giveRetract_of_park : giveRetract s = takeOrder .retract (-(d : Int)) s := by
  unfold giveRetract
  rw [if_pos ⟨hphase, hparked, hfree⟩, hpark, Option.getD_some]

theorem giveRetract_of_distance (h : 0 < d) : giveRetract s = s.setPaper { s.paper with
    state := .retracting, park := none
    motion := some { purpose := .retract, distance := -(d : Int), moved := 0, path := (activeProfile s).path
                     stop := none } } := by
  rw [giveRetract_of_park hphase hparked hpark hfree]
  exact takeOrder_back (by omega)

/-- A park of distance 0 is retracted as the order is taken. -/
theorem giveRetract_of_zero (h : d = 0) (hq : s.queue = e :: rest) : giveRetract s = entryGoesOn e s := by
  subst h
  rw [giveRetract_of_park hphase hparked hpark hfree]
  exact (takeOrder_zero .retract s).trans (firstPhase_rest hq)

end

/-! ## The take-up (spec/07 R139, R151) -/

/-- The head entry taken up, with a look-ahead plan made for it; its first phase is still to start. -/
def takenUp (e : Entry) (rest : List Entry) (s : State) : State :=
  { s with
    queue := { e with state := if e.pass.isSome then .active else .advancing } :: rest
    runner :=
      { s.runner with
        headPlan := s.runner.lookAhead.filter (fun p => p.tag == e.tag)
        lookAhead := s.runner.lookAhead.filter (fun p => p.tag != e.tag) } }

/-- A look-ahead plan is taken over or stays, by its tag. -/
theorem lookAhead_left (s : State) (tag : Byte) : (if (planFor s tag).isSome then none else s.runner.lookAhead)
    = s.runner.lookAhead.filter (fun p => p.tag != tag) := by
  unfold planFor
  cases s.runner.lookAhead with
  | none => rfl
  | some p => by_cases h : p.tag = tag <;> simp [Option.filter, h]

/-- The head entry taken up while the paper is parked or being parked. -/
def takenToRetract (e : Entry) (rest : List Entry) (s : State) : State :=
  (takenUp e rest s).setRunner { (takenUp e rest s).runner with phase := .retract, firstOrderDue := false }

theorem startHead_of_parkAhead (hq : s.queue = e :: rest) (h : parkAhead s = true) :
    startHead e s = giveRetract (takenToRetract e rest s) := by
  unfold startHead
  simp only [h, lookAhead_left, if_true]
  rw [setHeadState_cons (by exact hq)]
  rfl

theorem startHead_of_unparked (hq : s.queue = e :: rest) (h : parkAhead s = false) : startHead e s =
    (takenUp e rest s).setRunner
      (if e.pass.isSome then
        { (takenUp e rest s).runner with phase := .prep, point := .skipCheck, firstOrderDue := true }
      else { (takenUp e rest s).runner with phase := .advance, firstOrderDue := advanceClear s }) := by
  unfold startHead
  simp only [h, lookAhead_left]
  rw [setHeadState_cons (by exact hq), if_neg Bool.false_ne_true, firstPhase_cons rfl]
  cases hpass : e.pass <;> simp only [takenUp, hpass] <;> rfl

theorem parkAhead_of_parked (h : s.paper.state = .tearParked) : parkAhead s = true := by simp [parkAhead, h]

theorem parkAhead_of_tear {m : Motion} (h : s.paper.state = .advancing) (hm : s.paper.motion = some m)
    (hp : m.purpose = .tear) : parkAhead s = true := by simp [parkAhead, paperInFlight, PaperState.inFlight, h, hm, hp]

theorem parkAhead_of_rest (h : s.paper.state = .idle ∨ s.paper.state = .out) : parkAhead s = false := by
  rcases h with h | h <;> simp [parkAhead, paperInFlight, PaperState.inFlight, h]

theorem advanceClear_eq (s : State) : advanceClear s = decide (s.carriage.state = .idle ∨ s.carriage.state = .unhomed
    ∨ (s.carriage.state = .approach ∧ s.runner.lookAhead ≠ none)) := by
  rw [Bool.eq_iff_iff]
  simp only [advanceClear, carriageAtRest, Bool.or_eq_true, Bool.and_eq_true, CarState.atRest_iff,
    beq_iff_eq, decide_eq_true_eq, Option.isSome_iff_ne_none, or_assoc]

theorem takeUp_of_ready (hq : s.queue = e :: rest) (hstate : e.state = .ready) (hmay : mayTakeUp s = true)
    (habort : s.runner.abortPending = false) : takeUp s = startHead e s := by
  simp only [takeUp, hq]
  exact if_pos ⟨hstate, hmay, habort⟩

/-- Where nothing is taken up, TAKE_UP is the retract that is owed. -/
theorem takeUp_of_not (hq : s.queue = e :: rest)
    (h : e.state ≠ .ready ∨ mayTakeUp s = false ∨ s.runner.abortPending = true) : takeUp s = giveRetract s := by
  simp only [takeUp, hq]
  refine if_neg fun ⟨hstate, hmay, habort⟩ => ?_
  rcases h with h | h | h
  · exact h hstate
  · exact Bool.false_ne_true (h.symm.trans hmay)
  · exact Bool.false_ne_true (habort.symm.trans h)

end

/-- Settles O45: the take-up is `takenUp`, its first phase is that of the paper found, and what is not taken up is at
most given the retract it is owed. -/
theorem takeUpStartsHead : Obligations.TakeUpStartsHead := by
  intro s e rest hq
  refine ⟨fun hstate hpause hfault hcover howed hsource habort => ?_, fun hwait hphase => ?_,
    fun d hstate hphase hparked hpark => ?_⟩
  · have hheld : held s = false := by simp [held, hpause, hfault, hcover]
    have hhoming : clearHoming s = false := by
      rw [← Bool.not_eq_true, clearHoming_iff]
      rintro (h | ⟨x, hx, hclear⟩)
      · exact Bool.false_ne_true (howed.symm.trans h)
      · exact hsource x hx hclear
    have hexec : exec .takeUp s = .next (startHead e s) := congrArg Host.Outcome.next
      (takeUp_of_ready hq hstate ((mayTakeUp_iff s).2 ⟨hheld, hhoming⟩) habort)
    rw [hexec]
    refine ⟨takenUp e rest s, rfl, fun hpaper => ?_, fun d hparked hpark hstill => ?_, fun m hpaper hm hp => ?_⟩
    · rw [startHead_of_unparked hq (parkAhead_of_rest hpaper), advanceClear_eq]; rfl
    · have hfree : runnerFree s = true := (runnerFree_iff s).2 ⟨hheld, by simp [recovering, hhoming, hstill]⟩
      rw [startHead_of_parkAhead hq (parkAhead_of_parked hparked)]
      exact ⟨fun hd => congrArg Host.Outcome.next
          (giveRetract_of_distance (s := takenToRetract e rest s) rfl hparked hpark hfree hd),
        fun hd => congrArg Host.Outcome.next (giveRetract_of_zero (s := takenToRetract e rest s)
          (e := { e with state := if e.pass.isSome then .active else .advancing }) rfl hparked hpark hfree hd rfl)⟩
    · have hunparked : (takenToRetract e rest s).paper.state ≠ .tearParked := by
        simp [takenToRetract, takenUp, hpaper]
      rw [startHead_of_parkAhead hq (parkAhead_of_tear hpaper hm hp), giveRetract_of_unparked hunparked]; rfl
  · have hnot : e.state ≠ .ready ∨ mayTakeUp s = false ∨ s.runner.abortPending = true := by
      have hmay : held s = true → mayTakeUp s = false := fun h => by simp [mayTakeUp, h]
      rw [held_iff] at hmay
      rcases hwait with h | h | h | h | h
      · exact .inl (by simp [h])
      · exact .inr (.inl (hmay (.inl h)))
      · exact .inr (.inl (hmay (.inr (.inl h))))
      · exact .inr (.inl (hmay (.inr (.inr h))))
      · exact .inr (.inr h)
    exact congrArg Host.Outcome.next ((takeUp_of_not hq hnot).trans (giveRetract_of_phase hphase))
  · have hexec : exec .takeUp s = .next (giveRetract s) := congrArg Host.Outcome.next (takeUp_of_not hq (.inl hstate))
    rw [hexec]
    refine ⟨fun hheld => ?_, fun hfree hd => ?_, fun hfree hd => ?_⟩
    · rw [giveRetract_of_not_free hheld]
    · rw [giveRetract_of_distance hphase hparked hpark hfree hd]; rfl
    · rw [giveRetract_of_zero hphase hparked hpark hfree hd hq]; rfl

end Sys2Proof.Machine
end

section
/-! HEAT_CHECK and RESUME_SUSPENDED: the reading of Hmax, and the return of a stopped entry to ACTIVE. -/

namespace Sys2Proof.Machine

section
variable {s : State} {e : Entry} {rest : List Entry} {p : Pass}

/-! ## HEAT_CHECK (spec/07 R142, spec/04 R91) -/

/-- The points at which Hmax is read for an ACTIVE and for a HALTED head print entry. -/
theorem heatCheckDue_of_point (hq : s.queue = e :: rest) (hp : e.pass = some p)
    (h : (e.state = .active ∧
          ((s.runner.point = .heat ∧ (s.runner.phase = .prep ∨ s.runner.phase = .sweep)) ∨ s.runner.phase = .coolWait
            ∨ (s.runner.phase = .position ∧ s.runner.headPlan = none ∧ carriageAtRest s = true)))
        ∨ (e.state = .halted ∧ s.runner.phase = .sweep ∧ runnerFree s = true ∧ carriageAtRest s = true)) :
    heatCheckDue s = true := by
  unfold heatCheckDue
  rcases h with ⟨hstate, hpoint⟩ | ⟨hstate, -, hfree, hrest⟩
  · have hhead : headPrint s .active = true := headPrint_cons hq hp hstate
    rcases hpoint with ⟨hheat, hphase | hphase⟩ | hphase | ⟨hphase, hnone, hrest⟩ <;> simp [*]
  · have hhead : headPrint s .halted = true := headPrint_cons hq hp hstate
    simp [hhead, hfree, hrest]

/-- The check reads Hmax against one limit, which is lower in COOL_WAIT, and leaves the head entry ACTIVE. -/
theorem heatCheck_of_due (hq : s.queue = e :: rest) (hdue : heatCheckDue s = true) : heatCheck s =
    { s with
      queue := { e with state := .active } :: rest
      runner := { s.runner with
        point := .skipCheck
        phase := if hmax s < (if s.runner.phase = .coolWait then 4096 else 5120) then .position else .coolWait } } := by
  unfold heatCheck
  rw [if_pos hdue, setHeadState_cons (by exact hq)]
  by_cases hcool : hmax s < (if s.runner.phase = .coolWait then 4096 else 5120)
  · rw [if_pos hcool]; exact if_pos hcool
  · rw [if_neg hcool]; exact if_neg hcool

/-! ## RESUME_SUSPENDED (spec/07 R146) -/

theorem resumeSuspended_of_not_free (h : runnerFree s = false) : resumeSuspended s = s :=
  if_neg fun ⟨_, hfree, _⟩ => Bool.false_ne_true (h.symm.trans hfree)

theorem resumeSuspended_of_hot (h : s.runner.suspend = some .thermal) (hhot : 3072 ≤ hmax s) : resumeSuspended s = s :=
  if_neg fun ⟨_, _, hcool⟩ => Nat.not_lt.2 hhot (hcool h)

theorem resumeSuspended_of_free (hq : s.queue = e :: rest) (hp : e.pass = some p) (hstate : e.state = .suspended)
    (hfree : runnerFree s = true) (hcool : s.runner.suspend = some .thermal → hmax s < 3072) : resumeSuspended s =
    { s with
      queue := { e with state := .active } :: rest
      runner := afterMaskingRunner s.pool p { s.runner with suspend := none } } := by
  unfold resumeSuspended
  rw [if_pos ⟨headPrint_cons hq hp hstate, hfree, hcool⟩, setHeadState_cons (by exact hq)]
  exact afterMasking_cons rfl hp

end

/-- Settles O48: the check and the return are one equation each; what is left to fire is said as after masking. -/
theorem heatChecksAndResumes : Obligations.HeatChecksAndResumes := by
  obtain ⟨-, -, hwork⟩ := prepAndMasking
  refine ⟨fun s e rest p hq hp => ⟨fun hpoint => ⟨_, rfl, congrArg Host.Outcome.next
    (heatCheck_of_due hq (heatCheckDue_of_point hq hp hpoint))⟩, fun reason hstate hreason =>
      ⟨fun hfree hcool => congrArg Host.Outcome.next ?_, fun hwait => congrArg Host.Outcome.next ?_⟩⟩, hwork⟩
  · have hlimit : s.runner.suspend = some .thermal → hmax s < 3072 := fun hthermal => by
      obtain rfl := Option.some.inj (hreason.symm.trans hthermal)
      exact hcool.resolve_left nofun
    exact resumeSuspended_of_free hq hp hstate hfree hlimit
  · rcases hwait with hheld | ⟨rfl, hhot⟩
    · exact resumeSuspended_of_not_free (runnerFree_of_held hheld)
    · exact resumeSuspended_of_hot hreason hhot

end Sys2Proof.Machine
end

section
/-! CLEAR_FAULT, and what waits for a motion that a fault stopped. -/

namespace Sys2Proof.Machine

section
variable {s : State}

/-! ## CLEAR_FAULT (spec/07 R157) -/

theorem reqClearFault_of_homing (h : s.carriage.state = .homing) : reqClearFault s = refuse .busy s := if_pos h

theorem reqClearFault_of_none (h : s.carriage.state ≠ .homing) (hnone : s.runner.fault = none) :
    reqClearFault s = refuse .range s := by simp [reqClearFault, h, hnone]

/-- The record is cleared, and a homing is owed. -/
def homingOwing (s : State) : State := s.setRunner { s.runner with fault := none, homingOwed := true }

section
variable {f : FaultRecord} (hstate : s.carriage.state ≠ .homing) (hfault : s.runner.fault = some f)

include hstate hfault

theorem reqClearFault_of_placed (hpos : s.carriage.pos ≠ none) :
    reqClearFault s = accept (settleTear (s.setRunner { s.runner with fault := none })) := by
  simp [reqClearFault, hstate, hfault, Option.isSome_iff_ne_none, hpos]

section
variable (hpos : s.carriage.pos = none)

include hpos

theorem reqClearFault_of_lost : reqClearFault s = accept (settleTear (giveOwedHoming (homingOwing s))) := by
  simp [reqClearFault, hstate, hfault, hpos, homingOwing]

/-- At rest the homing begins at once. -/
theorem reqClearFault_of_rest (hrest : carriageAtRest s = true) : reqClearFault s = accept
    ((homingOrder .clearFault (s.setRunner { s.runner with fault := none, homingOwed := false })).setTime
      { s.time with stall := some 20, tearIdle := none }) := by
  have howed : (homingOwing s).runner.homingOwed = true := rfl
  have hat : carriageAtRest (homingOwing s) = true := hrest
  rw [reqClearFault_of_lost hstate hfault hpos, giveOwedHoming_of_owed howed hat,
    settleTear_of_not (tearReady_of_moving rfl)]
  rfl

theorem reqClearFault_of_moving (hmoves : carriageAtRest s = false) : reqClearFault s = accept
    ((homingOwing s).setTime { s.time with tearIdle := none }) := by
  have hmoves' : carriageAtRest (homingOwing s) = false := hmoves
  rw [reqClearFault_of_lost hstate hfault hpos, giveOwedHoming_of_moving hmoves',
    settleTear_of_not (tearReady_of_moving hmoves')]
  rfl

end

end

/-! ## What the runner waits for (spec/07 R157, R158) -/

theorem runnerFree_of_faultStopping (h : faultStopping s = true) : runnerFree s = false := by
  simp [runnerFree, recovering, h]

theorem mayOrderFirst_of_faultStopping (h : faultStopping s = true) : mayOrderFirst s = false := by
  simp [mayOrderFirst, recovering, h]

theorem advanceOrder_of_not_free (h : runnerFree s = false) : advanceOrder s = s := by
  unfold advanceOrder
  split
  · rfl
  · split
    · rfl
    · exact if_neg fun ⟨_, _, hfree, _⟩ => Bool.false_ne_true (h.symm.trans hfree)

theorem advanceEntryOrder_of_kept (h : mayOrderFirst s = false) : advanceEntryOrder s = s := by
  unfold advanceEntryOrder
  split
  · rfl
  · exact if_neg fun ⟨_, _, _, hmay, _⟩ => Bool.false_ne_true (h.symm.trans hmay)

theorem lookAheadPlan_of_not_free (h : runnerFree s = false) : lookAheadPlan s = s := by
  have hclosed : ¬lookAheadOpen s = true := fun hopen => by
    obtain ⟨-, -, hfree, -⟩ := (lookAheadOpen_iff s).1 hopen
    exact Bool.false_ne_true (h.symm.trans hfree)
  unfold lookAheadPlan
  split
  · split
    · exact if_neg fun ⟨_, _, hopen, _⟩ => hclosed hopen
    · rfl
  · rfl

/-- A skip that is called for waits, at whatever point PREP stands. -/
theorem prep_of_kept (h : skipNeeded (activeProfile s) s.paper.y = true) (hmay : mayOrderFirst s = false) :
    prep s = s := by
  simp only [prep, h, hmay, if_true]
  split
  · exact if_neg Bool.false_ne_true
  · rfl

theorem clearHoming_eq_false_iff : clearHoming s = false ↔
    s.runner.homingOwed = false ∧ ∀ h, s.carriage.homing = some h → h.source ≠ .clearFault := by
  rw [← Bool.not_eq_true, clearHoming_iff]
  simp

theorem faultStopping_eq_false_iff : faultStopping s = false ↔
    (∀ m x, s.paper.motion = some m → m.stop = some x → x.cause ≠ .fault)
      ∧ (s.carriage.state = .braking → s.carriage.brake ≠ some .halt) := by
  rw [← Bool.not_eq_true, faultStopping_iff]
  push Not
  rfl

theorem held_eq_false_iff : held s = false ↔
    s.runner.pause = false ∧ s.runner.fault = none ∧ s.pins.coverOpen = false := by
  simp [held, and_assoc]

end

/-- Settles O28: the request is judged by the carriage's state and the record; a motion that a fault stopped keeps every
order of the runner back, since each of them asks for `runnerFree` or `mayOrderFirst`. -/
theorem clearFaultClears : Obligations.ClearFaultClears := by
  refine ⟨fun s hopen => ?_, fun s hstop => ?_, fun s => ?_⟩
  · have hexec : exec .clearFault s = .next
        (replied 0x33#8 (reqClearFault s).code.byte (reqClearFault s).data (reqClearFault s).state) :=
      congrArg Host.Outcome.next (takeRequest_of_open hopen)
    rw [hexec]
    refine ⟨fun hstate => ?_, fun hstate hnone => ?_, fun f hstate hfault => ⟨fun hpos => ?_, fun hpos hcar => ?_,
      fun hpos hcar => ?_⟩⟩
    · rw [reqClearFault_of_homing hstate]; rfl
    · rw [reqClearFault_of_none hstate hnone]; rfl
    · rw [reqClearFault_of_placed hstate hfault hpos]; rfl
    · rw [reqClearFault_of_rest hstate hfault hpos ((CarState.atRest_iff _).2 (.inr hcar))]; rfl
    · rw [reqClearFault_of_moving hstate hfault hpos ((CarState.not_atRest_iff _).2 (by simp [hcar]))]; rfl
  · have hstopping : faultStopping s = true := (faultStopping_iff s).2 hstop
    have hfree : runnerFree s = false := runnerFree_of_faultStopping hstopping
    have hmay : mayOrderFirst s = false := mayOrderFirst_of_faultStopping hstopping
    refine ⟨hfree, hmay, fun c hc => ?_, fun hskip => congrArg Host.Outcome.next (prep_of_kept hskip hmay),
      fun e rest hq hstate => ?_⟩
    · simp only [List.mem_cons, List.not_mem_nil, or_false] at hc
      rcases hc with rfl | rfl | rfl | rfl | rfl | rfl
      · exact congrArg Host.Outcome.next (position_of_not_free hfree)
      · exact congrArg Host.Outcome.next (sweepOrder_of_not_free hfree)
      · exact congrArg Host.Outcome.next (advanceOrder_of_not_free hfree)
      · exact congrArg Host.Outcome.next (advanceEntryOrder_of_kept hmay)
      · exact congrArg Host.Outcome.next (lookAheadPlan_of_not_free hfree)
      · exact congrArg Host.Outcome.next (resumeSuspended_of_not_free hfree)
    · exact congrArg Host.Outcome.next ((takeUp_of_not hq (.inl hstate)).trans (giveRetract_of_not_free hfree))
  · simp only [runnerFree_iff, recovering, Bool.or_eq_false_iff, held_eq_false_iff, clearHoming_eq_false_iff,
      faultStopping_eq_false_iff, and_assoc]

end Sys2Proof.Machine
end

section
/-! The Event Unit: the condition set and ATTN_N in plain words, the bytes of the snapshot and of a completion record. -/

namespace Sys2Proof.Machine

/-! ## Bits of a flags byte -/

theorem boolByte_getLsbD (b : Bool) (i : Nat) : (boolByte b).getLsbD i = (decide (i = 0) && b) := by
  cases b <;> simp [boolByte]

/-- Bit i of a flags byte is the i-th of its bits, of which there are eight. -/
theorem flagsByte_getLsbD (l : List Bool) (i : Nat) :
    (flagsByte l).getLsbD i = (decide (i < 8) && l.getD i false) := by
  induction l generalizing i with
  | nil => simp [flagsByte]
  | cons b bs ih =>
    cases i with
    | zero =>
      simp only [flagsByte, BitVec.getLsbD_or, BitVec.getLsbD_shiftLeft, boolByte_getLsbD, List.getD_cons_zero]
      simp
    | succ i =>
      simp only [flagsByte, BitVec.getLsbD_or, BitVec.getLsbD_shiftLeft, ih, boolByte_getLsbD, List.getD_cons_succ]
      by_cases hi : i + 1 < 8
      · have : i < 8 := by omega
        simp [hi, this]
      · simp [hi]

/-! ## The conditions in plain words (spec/08 R164) -/

section
variable (s : State)

theorem condPaperOut_iff : condPaperOut s = true ↔ s.paper.state = .out := beq_iff_eq

theorem condHeadHot_iff : condHeadHot s = true ↔ 4096 ≤ hmax s := decide_eq_true_iff

theorem condFaultActive_iff : condFaultActive s = true ↔ s.runner.fault ≠ none := Option.isSome_iff_ne_none

theorem condQueueRoom_iff : condQueueRoom s = true ↔ s.queue.length ≤ 7 ∧ 52 ≤ s.pool.freeCount := by
  rw [condQueueRoom, Bool.and_eq_true, decide_eq_true_iff, decide_eq_true_iff]
  exact and_congr_left' Nat.lt_succ_iff

theorem condIdle_iff : condIdle s = true ↔ s.queue = [] ∧ (s.carriage.state = .idle ∨ s.carriage.state = .unhomed)
    ∧ (s.paper.state = .idle ∨ s.paper.state = .out ∨ s.paper.state = .tearParked) := by
  simp only [condIdle, Bool.and_eq_true, List.isEmpty_iff, carriageAtRest, CarState.atRest_iff, Bool.not_eq_true',
    paperInFlight, PaperState.not_inFlight_iff, and_assoc, or_comm (a := s.paper.state = .tearParked)]

/-- The condition set bit by bit. -/
theorem conditionByte_getLsbD_iff (i : Nat) : (conditionByte s).getLsbD i = true ↔
    (i = 0 ∧ s.paper.state = .out) ∨ (i = 1 ∧ s.pins.coverOpen = true) ∨ (i = 2 ∧ 4096 ≤ hmax s)
    ∨ (i = 3 ∧ s.runner.fault ≠ none) ∨ (i = 4 ∧ s.queue.length ≤ 7 ∧ 52 ≤ s.pool.freeCount)
    ∨ (i = 5 ∧ s.queue = [] ∧ (s.carriage.state = .idle ∨ s.carriage.state = .unhomed)
        ∧ (s.paper.state = .idle ∨ s.paper.state = .out ∨ s.paper.state = .tearParked))
    ∨ (i = 6 ∧ s.runner.pause = true) := by
  rw [conditionByte, flagsByte_getLsbD, ← condIdle_iff, ← condPaperOut_iff, ← condHeadHot_iff, ← condFaultActive_iff,
    ← condQueueRoom_iff]
  rcases i with _ | _ | _ | _ | _ | _ | _ | i <;> simp [condCoverOpen, condPaused]

/-! ## ATTN_N (spec/08 R166) -/

/-- An event stands at its own position of the attention word, and condition n at position 16 + n. -/
theorem attentionWord_getLsbD_iff (i : Nat) : (attentionWord s).getLsbD i = true ↔
    s.events.latched.getLsbD i = true ∨ ∃ n, i = 16 + n ∧ (conditionByte s).getLsbD n = true := by
  simp only [attentionWord, BitVec.getLsbD_or, BitVec.getLsbD_setWidth, BitVec.getLsbD_shiftLeft, Bool.or_eq_true,
    Bool.and_eq_true, Bool.not_eq_true', decide_eq_true_iff, decide_eq_false_iff_not]
  constructor
  · rintro (⟨-, hevent⟩ | ⟨⟨hi, hlow⟩, -, hcond⟩)
    · exact .inl hevent
    · exact .inr ⟨i - 16, by omega, hcond⟩
  · rintro (hevent | ⟨n, rfl, hcond⟩)
    · have := BitVec.lt_of_getLsbD hevent
      exact .inl ⟨by omega, hevent⟩
    · have := BitVec.lt_of_getLsbD hcond
      refine .inr ⟨⟨by omega, by omega⟩, by omega, ?_⟩
      rwa [Nat.add_sub_cancel_left]

/-- ATTN calls for service exactly when a position of the attention word is set and not masked. -/
theorem attnCalls_iff : attnCalls s = true ↔
    (∃ i, i < 12 ∧ s.events.latched.getLsbD i = true ∧ s.events.mask.getLsbD i = false)
    ∨ ∃ n, s.events.mask.getLsbD (16 + n) = false ∧ (conditionByte s).getLsbD n = true := by
  rw [attnCalls, bne_iff_ne, and_ne_zero_iff]
  simp only [attentionWord_getLsbD_iff, BitVec.getLsbD_not, Bool.and_eq_true, Bool.not_eq_true', decide_eq_true_iff]
  constructor
  · rintro ⟨i, hevent | ⟨n, rfl, hcond⟩, -, hmask⟩
    · exact .inl ⟨i, BitVec.lt_of_getLsbD hevent, hevent, hmask⟩
    · exact .inr ⟨n, hmask, hcond⟩
  · rintro (⟨i, hi, hevent, hmask⟩ | ⟨n, hmask, hcond⟩)
    · exact ⟨i, .inl hevent, by omega, hmask⟩
    · have := BitVec.lt_of_getLsbD hcond
      exact ⟨16 + n, .inr ⟨n, rfl, hcond⟩, by omega, hmask⟩

end

/-- Settles O14: outside a held reset the level says whether ATTN calls for service, which `attnCalls_iff` reads off the
positions of the mask word; each condition then stands at its own position. -/
theorem attnLineFollowsEventsAndConditions : Obligations.AttnLineFollowsEventsAndConditions := by
  intro s
  refine ⟨fun hlow => by rw [attnN, hlow, Bool.true_or], fun hhigh => ?_⟩
  rw [attnN, hhigh, Bool.false_or, Bool.not_eq_false', attnCalls_iff]
  refine or_congr_right ?_
  simp [conditionByte_getLsbD_iff, and_or_left, exists_or]

/-- Settles O13: the owner accepts the new mask in every state. -/
theorem setAttnMaskReplacesMask : Obligations.SetAttnMaskReplacesMask :=
  fun _ _ hopen => congrArg Host.Outcome.next (takeRequest_of_open hopen)

/-! ## Bytes of a number, low byte first (spec/09 R193) -/

theorem bytesLE_two (n : Nat) : bytesLE 2 n = [BitVec.ofNat 8 n, BitVec.ofNat 8 (n / 256)] := rfl

theorem bytesLE_three (n : Nat) :
    bytesLE 3 n = [BitVec.ofNat 8 n, BitVec.ofNat 8 (n / 256), BitVec.ofNat 8 (n / 65536)] := by
  simp only [bytesLE, Nat.div_div_eq_div_mul]

/-- The byte of a bit vector that its number gives after a division by a power of two. -/
theorem ofNat_toNat_div {w : Nat} (x : BitVec w) (k : Nat) :
    BitVec.ofNat 8 (x.toNat / 2 ^ k) = (x >>> k).setWidth 8 := by
  rw [← Nat.shiftRight_eq_div_pow, ← BitVec.toNat_ushiftRight, BitVec.ofNat_toNat]

theorem bytesLE_two_bits {w : Nat} (x : BitVec w) : bytesLE 2 x.toNat = [x.setWidth 8, (x >>> 8).setWidth 8] := by
  rw [bytesLE_two, BitVec.ofNat_toNat, ← ofNat_toNat_div]
  rfl

theorem bytesLE_four_bits {w : Nat} (x : BitVec w) :
    bytesLE 4 x.toNat = [x.setWidth 8, (x >>> 8).setWidth 8, (x >>> 16).setWidth 8, (x >>> 24).setWidth 8] := by
  simp only [bytesLE, Nat.div_div_eq_div_mul, BitVec.ofNat_toNat, ← ofNat_toNat_div]
  rfl

theorem frameOf_length (kind : Byte) (payload : List Byte) : (frameOf kind payload).length = payload.length + 5 := by
  simp [frameOf, bytesLE]

/-! ## The items of the snapshot (spec/07 R138, spec/08 R172) -/

section
variable (s : State)

theorem waitsCooling_iff : waitsCooling s = true ↔ s.runner.phase = .coolWait
    ∨ (s.runner.suspend = some .thermal ∧ 3072 ≤ hmax s ∧ ∃ e rest, s.queue = e :: rest ∧ e.state = .suspended) := by
  simp only [waitsCooling, Bool.or_eq_true, Bool.and_eq_true, beq_iff_eq, decide_eq_true_iff,
    Option.any_eq_true, List.head?_eq_some_iff, and_assoc, exists_and_right]
  exact or_congr_right (and_congr_right' and_comm)

theorem waitsPaper_iff : waitsPaper s = true ↔ s.runner.phase = .prep ∧ s.runner.point = .mask ∧ s.paper.pe = some 0
    ∧ ∃ e rest p, s.queue = e :: rest ∧ e.pass = some p ∧ p.suppressed = none := by
  simp only [waitsPaper, Bool.and_eq_true, beq_iff_eq, Option.any_eq_true, List.head?_eq_some_iff,
    Option.isNone_iff_eq_none, and_assoc, exists_and_left, exists_and_right]

/-- The hold reasons bit by bit. -/
theorem holdReasons_getLsbD_iff (i : Nat) : (holdReasons s).getLsbD i = true ↔
    (i = 0 ∧ s.runner.pause = true) ∨ (i = 1 ∧ s.runner.fault ≠ none) ∨ (i = 2 ∧ s.pins.coverOpen = true)
    ∨ (i = 3 ∧ (s.runner.phase = .coolWait
        ∨ (s.runner.suspend = some .thermal ∧ 3072 ≤ hmax s
          ∧ ∃ e rest, s.queue = e :: rest ∧ e.state = .suspended)))
    ∨ (i = 4 ∧ s.runner.phase = .prep ∧ s.runner.point = .mask ∧ s.paper.pe = some 0
        ∧ ∃ e rest p, s.queue = e :: rest ∧ e.pass = some p ∧ p.suppressed = none) := by
  rw [holdReasons, flagsByte_getLsbD, ← waitsCooling_iff, ← waitsPaper_iff]
  rcases i with _ | _ | _ | _ | _ | i <;> simp [Option.isSome_iff_ne_none]

/-- The first byte of the snapshot: what is present of the items behind it. -/
def statusFlags : Byte :=
  flagsByte [s.runner.pause, s.runner.fault.isSome, (s.runner.fault.bind FaultRecord.tag).isSome,
    (s.runner.fault.bind FaultRecord.pos).isSome, s.carriage.pos.isSome, s.paper.pe.isSome, !s.queue.isEmpty,
    (shownGrade s).isSome]

theorem statusFlags_getLsbD_iff (i : Nat) : (statusFlags s).getLsbD i = true ↔
    (i = 0 ∧ s.runner.pause = true) ∨ (i = 1 ∧ s.runner.fault ≠ none)
    ∨ (i = 2 ∧ ∃ f, s.runner.fault = some f ∧ f.tag ≠ none)
    ∨ (i = 3 ∧ ∃ f, s.runner.fault = some f ∧ f.pos ≠ none)
    ∨ (i = 4 ∧ s.carriage.pos ≠ none) ∨ (i = 5 ∧ s.paper.pe ≠ none) ∨ (i = 6 ∧ s.queue ≠ [])
    ∨ (i = 7 ∧ shownGrade s ≠ none) := by
  rw [statusFlags, flagsByte_getLsbD]
  rcases i with _ | _ | _ | _ | _ | _ | _ | _ | i <;>
    simp [Option.isSome_iff_ne_none, Option.isSome_bind, Option.any_eq_true]

theorem shownGrade_eq : shownGrade s =
    (match s.carriage.state, s.carriage.brake with
      | .runup, _ => s.carriage.plan.map Plan.grade
      | .sweep, _ => s.carriage.plan.map Plan.grade
      | .braking, some (.sweepEnd g) => some g
      | .braking, some (.suspend _ g) => some g
      | _, _ => none) := by
  rw [shownGrade]
  cases s.carriage.state <;> rcases s.carriage.brake with _ | (_ | _) <;> rfl

theorem faultByte_eq (o : Option FaultRecord) : (o.map (fun f => faultCodeByte f.code)).getD 0#8 =
    (match o.map FaultRecord.code with
      | none => 0#8 | some .stall => 1#8 | some .homeFail => 2#8 | some .headDrive => 3#8) := by
  rcases o with _ | ⟨_ | _ | _, _, _⟩ <;> rfl

theorem entryStateByte_eq (o : Option Entry) : (o.map (fun e => entryStateCode e.state)).getD 0#8 =
    (match o.map Entry.state with
      | none => 0#8 | some .opened => 0#8 | some .ready => 1#8 | some .active => 2#8
      | some .suspended => 3#8 | some .halted => 4#8 | some .advancing => 5#8) := by
  rcases o with _ | ⟨_, _ | _ | _ | _ | _ | _⟩ <;> rfl

theorem statusBytes_length : (statusBytes s).length = 28 := rfl

end

/-! ## A completion record on the line (spec/09 R199) -/

theorem completionBytes_eq (c : Completion) : completionBytes c =
    [ c.tag,
      BitVec.ofNat 8 ((if c.print then 0 else 1) + (if c.outcome = .aborted then 2 else 0)),
      BitVec.ofNat 8 c.fired, BitVec.ofNat 8 (c.fired / 256), BitVec.ofNat 8 (c.fired / 65536),
      BitVec.ofNat 8 c.suppressed, BitVec.ofNat 8 (c.suppressed / 256), BitVec.ofNat 8 (c.suppressed / 65536),
      BitVec.ofNat 8 c.lost, BitVec.ofNat 8 (c.lost / 256), BitVec.ofNat 8 (c.lost / 65536),
      BitVec.ofNat 8 c.sweeps,
      c.time.setWidth 8, (c.time >>> 8).setWidth 8, (c.time >>> 16).setWidth 8, (c.time >>> 24).setWidth 8,
      BitVec.ofNat 8 c.y, BitVec.ofNat 8 (c.y / 256) ] := by
  have hkind : flagsByte [!c.print, c.outcome == .aborted]
      = BitVec.ofNat 8 ((if c.print then 0 else 1) + (if c.outcome = .aborted then 2 else 0)) := by
    cases c.print <;> cases c.outcome <;> rfl
  rw [completionBytes, hkind, bytesLE_three, bytesLE_three, bytesLE_three, bytesLE_four_bits, bytesLE_two]
  rfl

theorem completionBytes_length (c : Completion) : (completionBytes c).length = 18 := rfl

theorem flatMap_completionBytes_length (l : List Completion) : (l.flatMap completionBytes).length = 18 * l.length := by
  simp [List.length_flatMap, completionBytes_length, Nat.mul_comm]

/-! ## READ_EVENTS (spec/08 R170) -/

theorem reqReadEvents_eq (s : State) : reqReadEvents s =
    { state := s.setEvents { s.events with latched := 0#12, records := s.events.records.drop 4 }
      code := .ok
      data := [s.events.latched.setWidth 8, (s.events.latched >>> 8).setWidth 8, conditionByte s,
          BitVec.ofNat 8 (min 4 s.events.records.length), BitVec.ofNat 8 (s.events.records.length - 4)]
        ++ (s.events.records.take 4).flatMap completionBytes } := by
  rw [reqReadEvents, bytesLE_two_bits, List.length_take, List.length_drop]
  rfl

/-- Settles O12: the flag bytes by their bits, the numbers by their bytes, and each owner's verdict as the reply. -/
theorem eventUnitReads : Obligations.EventUnitReads := by
  intro s hopen
  refine ⟨statusFlags s, holdReasons s, conditionByte s, shownGrade s, completionBytes, statusFlags_getLsbD_iff s,
    holdReasons_getLsbD_iff s, conditionByte_getLsbD_iff s, shownGrade_eq s, completionBytes_eq,
    congrArg Host.Outcome.next (takeRequest_of_open hopen), congrArg Host.Outcome.next (takeRequest_of_open hopen),
    statusBytes_length s, by rw [frameOf_length, List.length_cons, statusBytes_length], ?_, _, rfl, ?_,
    fun hfour => ?_⟩
  · rw [statusBytes, faultByte_eq, entryStateByte_eq, bytesLE_four_bits]
    rfl
  · refine congrArg Host.Outcome.next ((takeRequest_of_open hopen).trans ?_)
    rw [reqReadEvents_eq]
    rfl
  · rw [frameOf_length, List.length_cons, List.length_append, flatMap_completionBytes_length,
      List.length_take, Nat.min_eq_left hfour]
    rfl

end Sys2Proof.Machine
end

section
/-! Every command runs: its arm of the dispatch answers a next state, whose waiting commands are those it found. -/

namespace Sys2Proof.Machine

/-! ## The line -/

/-- No owner reaches the waiting commands. -/
theorem Owner.pending {owner : State → Verdict} (howner : Owner owner) (s : State) :
    (owner s).state.pending = s.pending := by
  cases howner with
  | refuse => rfl
  | _ => simp

theorem lineInvariant_pending (q : List Instr) : LineInvariant (fun s => s.pending = q) :=
  ⟨fun _ => Iff.rfl, fun howner s _ h => (howner.pending s).trans h⟩

/-! ## The resets -/

@[simp] theorem powerOnReset_pending (l : Levels) (s : State) : (powerOnReset l s).pending = s.pending := by
  simp [powerOnReset]

@[simp] theorem warmValues_pending (s : State) : (warmValues s).pending = s.pending := rfl

@[simp] theorem resetNAssert_pending (s : State) : (resetNAssert s).pending = s.pending := by
  unfold resetNAssert; split <;> simp

@[simp] theorem resetNRelease_pending (b a : Bool) (s : State) : (resetNRelease b a s).pending = s.pending := by
  unfold resetNRelease; split <;> simp

@[simp] theorem warmReset_pending (b a : Bool) (s : State) : (warmReset b a s).pending = s.pending := by
  unfold warmReset; split <;> simp

@[simp] theorem replySent_pending (s : State) : (replySent s).pending = s.pending := by
  unfold replySent; split <;> simp

/-! ## Every command -/

/-- Settles O2: the resets by the lemmas above, the acts of the blocks by their frames, and the line with its requests as
an invariant of the line. -/
theorem everyCommandRuns : Obligations.EveryCommandRuns := by
  intro c s
  cases c with
  | powerOnReset l => exact ⟨_, rfl, powerOnReset_pending l s⟩
  | resetNAssert => exact ⟨_, rfl, resetNAssert_pending s⟩
  | resetNRelease b a => exact ⟨_, rfl, resetNRelease_pending b a s⟩
  | warmReset b a => exact ⟨_, rfl, warmReset_pending b a s⟩
  | replySent => exact ⟨_, rfl, replySent_pending s⟩
  | msTick | coolingTick | windowTimerExpiry | tearIdleTimerExpiry | stallTimerExpiry => exact ⟨_, rfl, by simp⟩
  | restDetected | brakeRampEnd | encoderEdge | homeSensorChange => exact ⟨_, rfl, by simp⟩
  | burstSlot | burstEnd | driveFault => exact ⟨_, rfl, by simp⟩
  | coverOpen | coverClose | paperSnsNoPaper | paperSnsPaper => exact ⟨_, rfl, by simp⟩
  | feedUnit | paperMotionComplete => exact ⟨_, rfl, by simp⟩
  | takeUp | prep | masking | heatCheck | position | sweepOrder | resumeSuspended | advanceOrder | advanceEntryOrder
    | lookAheadPlan | entryAborted => exact ⟨_, rfl, by simp⟩
  | _ => exact (lineInvariant_pending s.pending).exec rfl rfl

end Sys2Proof.Machine
end
